-- ==== Sys2Proof/Word.lean ====
section
/-! DEFINITION. The word types of Tlaust: bytes, 32-bit lanes, 64-bit scalars and instruction words, masks (R4, R22, R52, R97). -/
namespace Sys2Proof

/-- One byte of memory. -/
abbrev Byte := BitVec 8

/-- One lane of a vector register, one word of a tile, one handle of a named queue. -/
abbrev Word32 := BitVec 32

/-- A scalar register, a virtual address, an instruction word. -/
abbrev DWord := BitVec 64

/-- A mask over the lanes of a team, in the layout of R22: bit 32·w + j is bit j of mask word w. -/
abbrev Mask := BitVec 1024

/-- One row of a loam bed over the lanes of the largest bed, 16,384 × 8 (R240). -/
abbrev BedRow := BitVec 131072

end Sys2Proof
end

