-- ==== Sys2Proof/Syntax.lean ====
section
/-! DEFINITION. The instructions of Tlaust and the steps of the G960's other agents: one constructor of `Instr` for each row of
spec/opcode_table.json, and the operand shapes that the constructors carry. A row that is a word of the opcode map carries the
fields of its word (R54, R62, R63); a row that is a step of another agent carries what says which item it concerns. -/
namespace Sys2Proof

/-- The element types of R59; codes 13 to 15 are reserved and no value stands for them. FENCE uses the codes as its scope (R195). -/
inductive ElemType where
  | untyped | s8 | s16 | s32 | s64 | n8 | n16 | n32 | n64 | f16 | bf16 | f32 | d8
  deriving DecidableEq, Repr

/-- A destination field d: a register number of the kind that the instruction gives d, or with qd a queue register (R54, R55). -/
inductive Dst where
  | reg (n : BitVec 8)
  | queue (n : BitVec 8)
  deriving DecidableEq, Repr

/-- A source field a or b: a register number of the kind that the instruction gives the field; with ia or ib an 8-bit signed
immediate; with sb a scalar register, broadcast; with qa or qb a queue register (R54 to R57). -/
inductive Src where
  | reg (n : BitVec 8)
  | imm (n : BitVec 8)
  | scalar (n : BitVec 8)
  | queue (n : BitVec 8)
  deriving DecidableEq, Repr

/-- The fields of an F word other than format and op (R54). `mask` is the k register of ke and ks. -/
structure Ops where
  d : Dst
  a : Src
  b : Src
  var : BitVec 4
  ty : ElemType
  mode : BitVec 2
  mask : Option (BitVec 3)
  la : BitVec 4
  deriving DecidableEq, Repr

/-- The fields of an L word other than format and op (R62). -/
structure LOps where
  d : BitVec 8
  a : BitVec 8
  imm : BitVec 32
  la : BitVec 4
  deriving DecidableEq, Repr

/-- The second source of a D-word slot (R63): a register, with sb a broadcast scalar, with ib an immediate. -/
inductive SlotSrc where
  | reg (n : BitVec 8)
  | scalar (n : BitVec 8)
  | imm (n : BitVec 8)
  deriving DecidableEq, Repr

/-- The fields of one slot of a D word other than sop (R63). -/
structure Slot where
  d : BitVec 8
  b : SlotSrc
  mask : Option (BitVec 3)
  dt : BitVec 2
  deriving DecidableEq, Repr

/-- The short operations of R66 other than NOP. -/
inductive Sop where
  | vadd | vsub | vmul | vmin | vmax | vadds | vsubs
  | vand | vor | vxor | vshl | vshr | vsar | vmov
  | fadd | fsub | fmul | fmin | fmax
  | sadd | ssub | sand | sor | sxor | sshl | sshr | ssar | smin | smax
  deriving DecidableEq, Repr

/-- Slot 1 of a D word: a NOP slot or a short operation with its fields. A D word is one instruction (R64): the constructor names
the operation of its slot 0 and carries its slot 1 as data. -/
inductive Short where
  | nop
  | op (sop : Sop) (x : Slot)
  deriving DecidableEq, Repr

/-- The trap causes of R358. -/
inductive Cause where
  | illegalInstruction | illegalPair | illegalRegister | userTrap | environmentCall
  | pageNotPresent | writeProtection | windowKind | noOperator | misalignment
  | illegalWait | watchdogExpiry | admissionRefused
  | emulation | formatFault
  | errorConsumed | auditMismatch | unattributable
  | bufferRevoked | linkFailure | hostAtomic
  | userSignal | userWatchdog | userInvalid
  deriving DecidableEq, Repr

/-- The code of a cause (R358). -/
def Cause.code : Cause → Byte
  | .illegalInstruction => 0x01 | .illegalPair => 0x02 | .illegalRegister => 0x03 | .userTrap => 0x04 | .environmentCall => 0x05
  | .pageNotPresent => 0x10 | .writeProtection => 0x11 | .windowKind => 0x12 | .noOperator => 0x13 | .misalignment => 0x14
  | .illegalWait => 0x20 | .watchdogExpiry => 0x21 | .admissionRefused => 0x22
  | .emulation => 0x30 | .formatFault => 0x31
  | .errorConsumed => 0x40 | .auditMismatch => 0x41 | .unattributable => 0x42
  | .bufferRevoked => 0x50 | .linkFailure => 0x51 | .hostAtomic => 0x52
  | .userSignal => 0x60 | .userWatchdog => 0x61 | .userInvalid => 0x62

/-- The accesses that translate distinguishes (R164). -/
inductive Access where
  | read | write | fetch | atomic | wait
  deriving DecidableEq, Repr

/-- Where a line whose dirty words are written back is held: the L1 of a core, or a slice (R168, R173). -/
inductive CacheSite where
  | l1 (core : Nat)
  | slice (slice : Nat)
  deriving DecidableEq, Repr

/-- What an error of R376 names: a host queue (function and number, as 512·f + queue) or no queue. -/
inductive ErrorScope where
  | queue (queue : Nat)
  | package
  deriving DecidableEq, Repr

/-- Where an error of R175, R237 or R255 arises: a word of memory by its physical address, a scratchpad word of a gang by its offset,
the matrix of an operator, a byte of an apply slot, the row segments of a bed, a word of an L1 line, a lane of a vector register, a scalar or
mask register of a team, a word of an accumulator tile, an entry of scale memory, a byte of a result slot, or a named barrier or queue of a
gang. -/
inductive ErrorSite where
  | word (pa : Nat)
  | scratch (gang off : Nat)
  | operator (slice slot : Nat)
  | apply (slice slot vslot byte : Nat)
  | bed (slice bed row segment : Nat)
  | l1 (core line word : Nat)
  | vector (team n lane : Nat)
  | scalar (team n : Nat)
  | mask (team n : Nat)
  | tile (core tile word : Nat)
  | scale (core entry : Nat)
  | result (slice slot vslot byte : Nat)
  | barrier (gang n : Nat)
  | queue (gang n : Nat)
  deriving DecidableEq, Repr

/-- Who writes the management window (R330): the physical function's system software or the Plovdy firmware, a privileged context,
or anybody else. -/
inductive MgmtWriter where
  | system
  | context (ctx : Nat)
  | other
  deriving DecidableEq, Repr

/-- A store to a doubleword of hub register space: the value, and by bit the bytes of it that are stored. -/
structure HubStore where
  value : DWord
  bytes : Byte
  deriving DecidableEq, Repr

/-- The space that an access from outside names: physical memory and hub register space as the host reaches them, the G960's extended capability in
configuration space by its offset, the registers of the I3C target (R391), or physical memory as a hart of the Plovdy cluster reaches it (R390). -/
inductive HostSpace where
  | memory
  | capability
  | sideband
  | cluster
  deriving DecidableEq, Repr

/-- The address of an access from outside, its space, and the function through whose BAR the access comes (R333, R384, R389). -/
structure HostAddr where
  space : HostSpace
  function : Nat
  pa : Nat
  deriving DecidableEq, Repr

/-- The lines of a result that an operator writes in one step: a slice, and how many lines (R178). -/
structure FireRun where
  slice : Nat
  lines : Nat
  deriving DecidableEq, Repr

/-- What becomes of a connection: it fails, or system software opens or closes it (R285, R294, R382). -/
inductive ConnFate where
  | fails
  | opens
  | closes
  deriving DecidableEq, Repr

/-- A connection and what becomes of it. -/
structure ConnChange where
  conn : Nat
  fate : ConnFate
  deriving DecidableEq, Repr

/-- What the firmware defines for a product of format codes 7 to 14 (R316): the half-bytes of the elements of A and B, and the words of the
tile. -/
structure Emulated where
  halvesA : Nat
  halvesB : Nat
  words : List Word32
  deriving DecidableEq, Repr

/-- The failing block of self-test (R391). -/
structure TestFailure where
  cls : BitVec 6
  index : BitVec 16
  syndrome : BitVec 32
  deriving DecidableEq, Repr

/-- A firmware image as the boot ROM receives it, byte by byte (R393). -/
abbrev FirmwareImage := List Byte

/-- The host's answer to a CXL.cache request of the device (R387): the line's data with or without ownership, or a refusal. -/
inductive CxlResponse where
  | shared
  | owned
  | refused
  deriving DecidableEq, Repr

/-- The CXL.io AtomicOps that the device completes for the host (R384). -/
inductive HostAtomic where
  | fetchAdd | swap | cas
  deriving DecidableEq, Repr

/-- The instructions of the opcode map (R72), the short operations of D words (R66) and the steps of the device's other agents,
those
steps first that other definitions of the model make: compiled code cannot make a constructor beyond the 245th. -/
inductive Instr where
  /-- SADD (R119). Scalar add of a and b modulo 2^64 into d (F form). -/
  | sadd (o : Ops)
  /-- SADD_L (R118). L-form scalar add of a and the sign-extended 32-bit immediate into d. -/
  | saddL (o : LOps)
  /-- SSUB (R119). Scalar subtract a minus b modulo 2^64 into d. -/
  | ssub (o : Ops)
  /-- SMUL (R119). Scalar multiply, low 64 bits of the product into d (F form). -/
  | smul (o : Ops)
  /-- SMUL_L (R118). L-form scalar multiply by the sign-extended immediate. -/
  | smulL (o : LOps)
  /-- SMULH (R119). High 64 bits of the exact 128-bit product, signed or unsigned by type. -/
  | smulh (o : Ops)
  /-- SDIV (R120). Scalar division rounding toward zero, with fixed results for division by zero and overflow. -/
  | sdiv (o : Ops)
  /-- SREM (R120). Scalar remainder taking the sign of a, with fixed results for the special cases. -/
  | srem (o : Ops)
  /-- SAND (R119). Scalar bitwise AND (F form). -/
  | sand (o : Ops)
  /-- SAND_L (R118). L-form scalar AND with the sign-extended immediate. -/
  | sandL (o : LOps)
  /-- SOR (R119). Scalar bitwise OR (F form). -/
  | sor (o : Ops)
  /-- SOR_L (R118). L-form scalar OR with the sign-extended immediate. -/
  | sorL (o : LOps)
  /-- SXOR (R119). Scalar bitwise XOR (F form). -/
  | sxor (o : Ops)
  /-- SXOR_L (R118). L-form scalar XOR with the sign-extended immediate. -/
  | sxorL (o : LOps)
  /-- SSHL (R119). Scalar shift left by b[5:0]. -/
  | sshl (o : Ops)
  /-- SSHR (R119). Scalar logical shift right by b[5:0]. -/
  | sshr (o : Ops)
  /-- SSAR (R119). Scalar arithmetic shift right by b[5:0]. -/
  | ssar (o : Ops)
  /-- SMIN (R119). Scalar minimum, signed or unsigned by type. -/
  | smin (o : Ops)
  /-- SMAX (R119). Scalar maximum, signed or unsigned by type. -/
  | smax (o : Ops)
  /-- SCMP (R121). Scalar comparison by variant relation writing 1 or 0 into d. -/
  | scmp (o : Ops)
  /-- SLEA (R122). Address formation d = a + (b << sh). -/
  | slea (o : Ops)
  /-- SMOVI (R123). Sets d to the sign-extended 32-bit immediate. -/
  | smovi (o : LOps)
  /-- SMOVHI (R123). Replaces d[63:32] with the immediate, keeping d[31:0]. -/
  | smovhi (o : LOps)
  /-- BR (R125). Unconditional PC-relative branch. -/
  | br (o : LOps)
  /-- BZ (R125). Branch when the scalar is zero. -/
  | bz (o : LOps)
  /-- BNZ (R125). Branch when the scalar is non-zero. -/
  | bnz (o : LOps)
  /-- BLT (R125). Branch when s(d) is less than s(a), signed. -/
  | blt (o : LOps)
  /-- BANY (R125). Branch when em AND k is non-zero in some word. -/
  | bany (o : LOps)
  /-- BALL (R125). Branch when em AND NOT k is zero in every word. -/
  | ball (o : LOps)
  /-- BNONE (R125). Branch when em AND k is zero in every word. -/
  | bnone (o : LOps)
  /-- JMP (R127). Indirect jump to s(a), writing the link PC+8 into d. -/
  | jmp (o : Ops)
  /-- CALL (R126). PC-relative call writing the link and transferring together. -/
  | call (o : LOps)
  /-- RET (R127). Return to the address in s(a). -/
  | ret (o : Ops)
  /-- LOOP (R128). Decrements the counter and branches while the result is non-zero. -/
  | loop (o : LOps)
  /-- EXIT (R129). Ends the team after its open windows close, leaving engine commands queued. -/
  | exit (o : Ops)
  /-- SRD (R132). Reads a special register into a scalar, or LANE into a vector. -/
  | srd (o : Ops)
  /-- SWR (R133). Writes a user special register with its per-register write semantics. -/
  | swr (o : Ops)
  /-- NOP (R365). Does nothing; an ordinary instruction boundary. -/
  | nop (o : Ops)
  /-- TRAP (R365). Delivers user trap 0x04 with code n to UHANDLER. -/
  | trap (o : Ops)
  /-- URET (R363). Closes handler windows, unfreezes interrupted ones, restores GE and returns to UEPC. -/
  | uret (o : Ops)
  /-- ECALL (R365). Parks the team with cause 0x05 for a system service. -/
  | ecall (o : Ops)
  /-- HALT (R365). Waits for windows then ends the gang and dispatch with cause 0x04. -/
  | halt (o : Ops)
  /-- YIELD (R365). Ends the team's issue turn, letting each other ready team of the pipe issue once. -/
  | yield (o : Ops)
  /-- EVSEL (R356). Selects or releases an event for an event counter of the gang. -/
  | evsel (o : Ops)
  /-- EVRD (R357). Reads an event counter held by the gang. -/
  | evrd (o : Ops)
  /-- CTXSAVE (R370). Privileged: returns the save size or pre-empts a gang into a save area. -/
  | ctxsave (o : Ops)
  /-- CTXRST (R370). Privileged: accepts a save image and has the gang admitted and restored. -/
  | ctxrst (o : Ops)
  /-- RESUME (R366). Privileged: releases, or with .kill ends, everything held under a fault id. -/
  | resume (o : Ops)
  /-- TLBINV (R367). Privileged: requests a translation invalidation by VA range, context or all. -/
  | tlbinv (o : Ops)
  /-- VADD (R138). Per-lane integer add modulo 2^32. -/
  | vadd (o : Ops)
  /-- VSUB (R138). Per-lane integer subtract. -/
  | vsub (o : Ops)
  /-- VMUL (R138). Per-lane integer multiply, low 32 bits. -/
  | vmul (o : Ops)
  /-- VMULH (R138). Per-lane high 32 bits of the exact product. -/
  | vmulh (o : Ops)
  /-- VMAD (R138). Per-lane multiply-add into d. -/
  | vmad (o : Ops)
  /-- VADDS (R138). Per-lane saturating add. -/
  | vadds (o : Ops)
  /-- VSUBS (R138). Per-lane saturating subtract. -/
  | vsubs (o : Ops)
  /-- VAND (R138). Per-lane bitwise AND. -/
  | vand (o : Ops)
  /-- VOR (R138). Per-lane bitwise OR. -/
  | vor (o : Ops)
  /-- VXOR (R138). Per-lane bitwise XOR. -/
  | vxor (o : Ops)
  /-- VSHL (R138). Per-lane shift left by b[4:0]. -/
  | vshl (o : Ops)
  /-- VSHR (R138). Per-lane logical shift right. -/
  | vshr (o : Ops)
  /-- VSAR (R138). Per-lane arithmetic shift right. -/
  | vsar (o : Ops)
  /-- VMIN (R138). Per-lane integer minimum. -/
  | vmin (o : Ops)
  /-- VMAX (R138). Per-lane integer maximum. -/
  | vmax (o : Ops)
  /-- VCMP (R139). Per-lane integer comparison writing a whole mask register. -/
  | vcmp (o : Ops)
  /-- VSEL (R140). Per-lane select between a and b by a k register. -/
  | vsel (o : Ops)
  /-- VMOV (R141). Per-lane copy of b into d. -/
  | vmov (o : Ops)
  /-- FADD (R142). Per-lane floating add with one rounding. -/
  | fadd (o : Ops)
  /-- FSUB (R142). Per-lane floating subtract. -/
  | fsub (o : Ops)
  /-- FMUL (R142). Per-lane floating multiply. -/
  | fmul (o : Ops)
  /-- FFMA (R142). Per-lane fused multiply-add with one rounding. -/
  | ffma (o : Ops)
  /-- FMIN (R143). Per-lane floating minimum with -0 below +0. -/
  | fmin (o : Ops)
  /-- FMAX (R143). Per-lane floating maximum. -/
  | fmax (o : Ops)
  /-- FCMP (R144). Per-lane floating comparison writing a mask. -/
  | fcmp (o : Ops)
  /-- FRCP (R145). Correctly rounded reciprocal, long-latency. -/
  | frcp (o : Ops)
  /-- FSQRT (R145). Correctly rounded square root. -/
  | fsqrt (o : Ops)
  /-- FRSQ (R145). Correctly rounded reciprocal square root. -/
  | frsq (o : Ops)
  /-- FEXP2 (R145). Correctly rounded base-2 exponential. -/
  | fexp2 (o : Ops)
  /-- FLOG2 (R145). Correctly rounded base-2 logarithm. -/
  | flog2 (o : Ops)
  /-- FSIN (R145). Correctly rounded sine. -/
  | fsin (o : Ops)
  /-- FCOS (R145). Correctly rounded cosine. -/
  | fcos (o : Ops)
  /-- FTANH (R145). Correctly rounded hyperbolic tangent. -/
  | ftanh (o : Ops)
  /-- CVT (R146). Converts between integer, float and DM8 types, wrapping integer-to-integer. -/
  | cvt (o : Ops)
  /-- CVTS (R146). Converts between types, saturating integer-to-integer. -/
  | cvts (o : Ops)
  /-- D8PACK (R147). Quantises into one byte of each lane using an S10 block scale. -/
  | d8pack (o : Ops)
  /-- D8UNP (R148). Decodes one DM8 byte per lane and applies a block scale. -/
  | d8unp (o : Ops)
  /-- S10MK (R149). Computes an S10 block scale per aligned group of lanes. -/
  | s10mk (o : Ops)
  /-- S10AP (R150). Divides or multiplies floating values by an S10 scale. -/
  | s10ap (o : Ops)
  /-- XROT (R152). Rotates lanes within segments. -/
  | xrot (o : Ops)
  /-- XBFLY (R153). Butterfly exchange d[l] = a[l XOR m]. -/
  | xbfly (o : Ops)
  /-- XSHFL (R154). General long-latency lane gather. -/
  | xshfl (o : Ops)
  /-- XBCST (R155). Broadcasts one lane to every active lane. -/
  | xbcst (o : Ops)
  /-- XRED (R156). Reduces active lanes in the log-step tree, writing every active lane. -/
  | xred (o : Ops)
  /-- XSCAN (R157). Inclusive scan across active lanes. -/
  | xscan (o : Ops)
  /-- XFIND (R158). Writes the lowest active lane equal to a value, or all ones. -/
  | xfind (o : Ops)
  /-- KAND (R159). Mask AND. -/
  | kand (o : Ops)
  /-- KOR (R159). Mask OR. -/
  | kor (o : Ops)
  /-- KXOR (R159). Mask XOR. -/
  | kxor (o : Ops)
  /-- KANDN (R159). Mask AND NOT. -/
  | kandn (o : Ops)
  /-- KPOP (R159). Counts set bits of a mask into a scalar. -/
  | kpop (o : Ops)
  /-- KFIRST (R159). Writes the lowest set lane of a mask into a scalar. -/
  | kfirst (o : Ops)
  /-- EMGET (R159). Copies em into a k register. -/
  | emget (o : Ops)
  /-- EMSET (R160). Sets em from a k register. -/
  | emset (o : Ops)
  /-- EMAND (R160). ANDs em with a k register. -/
  | emand (o : Ops)
  /-- LD (R184). Loads one element per active lane, long-latency. -/
  | ld (o : Ops)
  /-- ST (R184). Stores one element per active lane, performing no lane until all pass their checks. -/
  | st (o : Ops)
  /-- LDS (R185). Loads one scalar for the team (F form). -/
  | lds (o : Ops)
  /-- LDS_L (R185). L-form 64-bit scalar load at a + sext(imm). -/
  | ldsL (o : LOps)
  /-- STS (R185). Stores one scalar for the team (F form). -/
  | sts (o : Ops)
  /-- STS_L (R185). L-form 64-bit scalar store at a + sext(imm). -/
  | stsL (o : LOps)
  /-- LDL (R186). Local-window load from scratchpad or register aperture. -/
  | ldl (o : Ops)
  /-- STL (R186). Local-window store into scratchpad or register aperture. -/
  | stl (o : Ops)
  /-- PF (R189). Prefetches lines, optionally with write ownership, never faulting. -/
  | pf (o : Ops)
  /-- DISC (R190). Permits the core to drop its dirty L1 words of a line. -/
  | disc (o : Ops)
  /-- FLUSH (R189). Writes back dirty L1 words of a line, and with .all slice copies too. -/
  | flush (o : Ops)
  /-- INV (R189). Writes back then invalidates the L1 copy of a line. -/
  | inv (o : Ops)
  /-- ATOM (R194). Per-lane atomic read-modify-write with old values returned by running value of each group. -/
  | atom (o : Ops)
  /-- RED (R194). Per-lane atomic reduction without return. -/
  | red (o : Ops)
  /-- SATOM (R191). Scalar atomic read-modify-write returning the old value. -/
  | satom (o : Ops)
  /-- FENCE (R197). Orders the team's accesses by kind and scope, writing back L1 at die scope or wider. -/
  | fence (o : Ops)
  /-- WAITA (R201). Blocking wait until a memory word satisfies a condition. -/
  | waita (o : Ops)
  /-- TRYWAIT (R202). Waits on a word for at most a hinted time, returning 1 or 0. -/
  | trywait (o : Ops)
  /-- BARINIT (R345). Initialises or reinitialises a named barrier. -/
  | barinit (o : Ops)
  /-- BARARR (R346). Arrives on a barrier and returns the phase token. -/
  | bararr (o : Ops)
  /-- BARTX (R346). Adds a byte count to a barrier's balance, with .arr also arriving. -/
  | bartx (o : Ops)
  /-- BARWAIT (R347). Blocking wait for a barrier phase to complete. -/
  | barwait (o : Ops)
  /-- BARSYNC (R347). Arrives on a barrier and waits for the phase. -/
  | barsync (o : Ops)
  /-- BARTRYWAIT (R347). Waits for a barrier phase for at most a hinted time. -/
  | bartrywait (o : Ops)
  /-- CINIT (R262). Initialises a named gang queue in scratchpad. -/
  | cinit (o : Ops)
  /-- PUSHC (R263). Pushes a handle onto a named queue, blocking while full. -/
  | pushc (o : Ops)
  /-- POPC (R263). Pops a handle from a named queue, blocking while empty. -/
  | popc (o : Ops)
  /-- TRYPOPC (R263). Pops a handle if one is present, never blocking. -/
  | trypopc (o : Ops)
  /-- FETCHW (R272). Requests the next unplaced gang of a fetchable dispatch into a mailbox. -/
  | fetchw (o : Ops)
  /-- SPAWN (R270). Pushes a continuation record onto the continuation queue. -/
  | spawn (o : Ops)
  /-- JOIN (R349). Decrements a join counter and releases the continuation at the last party. -/
  | join (o : Ops)
  /-- QBIND (R113). Binds a queue register to an endpoint. -/
  | qbind (o : Ops)
  /-- QUNBIND (R114). Ends a queue register's binding. -/
  | qunbind (o : Ops)
  /-- QINFO (R115). Reads a queue register's binding state. -/
  | qinfo (o : Ops)
  /-- MMA (R302). Issues a dense matrix multiply-accumulate command. -/
  | mma (o : Ops)
  /-- MMA_SP (R304). Issues a structured-sparse matrix multiply-accumulate command. -/
  | mmaSp (o : Ops)
  /-- MMA_TRI (R305). Issues a triangular-masked matrix multiply-accumulate command. -/
  | mmaTri (o : Ops)
  /-- SCLD (R306). Issues a load of S10 scales into scale memory. -/
  | scld (o : Ops)
  /-- ACCZ (R309). Issues a command zeroing the head tile. -/
  | accz (o : Ops)
  /-- ACCADV (R310). Issues a command passing the head tile to the epilogue and advancing h. -/
  | accadv (o : Ops)
  /-- EPCFG (R311). Issues an epilogue configuration command. -/
  | epcfg (o : Ops)
  /-- MSTAT (R319). Reads a sample of the matrix engine state. -/
  | mstat (o : Ops)
  /-- CPY (R279). Issues a multi-dimensional copy command. -/
  | cpy (o : Ops)
  /-- CPYF (R280). Issues a memory fill command. -/
  | cpyf (o : Ops)
  /-- CPYG (R281). Issues a bounded gather copy command. -/
  | cpyg (o : Ops)
  /-- NPOST (R288). Posts a receive buffer on a connection with a counter. -/
  | npost (o : Ops)
  /-- NUNPOST (R289). Revokes a posted receive buffer. -/
  | nunpost (o : Ops)
  /-- NSEND (R291). Sends bytes to a remote buffer. -/
  | nsend (o : Ops)
  /-- NSENDT (R292). Arms a send triggered by a receive counter threshold. -/
  | nsendt (o : Ops)
  /-- NCNT (R295). Reads a receive counter, or with .sub subtracts from it. -/
  | ncnt (o : Ops)
  /-- WAITC (R352). Blocking wait until a receive counter reaches a threshold. -/
  | waitc (o : Ops)
  /-- LMREQ (R242). Requests plots as a loam bed and returns a handle or code. -/
  | lmreq (o : Ops)
  /-- LMREL (R244). Releases a bed at a point in its engine's order. -/
  | lmrel (o : Ops)
  /-- LMIN (R250). Issues a transpose of memory elements into a bed field. -/
  | lmin (o : Ops)
  /-- LMOUT (R250). Issues a transpose of a bed field out to memory. -/
  | lmout (o : Ops)
  /-- LADD (R249). Issues a bit-serial add command. -/
  | ladd (o : Ops)
  /-- LSUB (R249). Issues a bit-serial subtract command. -/
  | lsub (o : Ops)
  /-- LMUL (R249). Issues a bit-serial multiply command. -/
  | lmul (o : Ops)
  /-- LLOG (R249). Issues a bitwise logic command. -/
  | llog (o : Ops)
  /-- LCMP (R249). Issues a comparison command writing a 1-bit field. -/
  | lcmp (o : Ops)
  /-- LSEL (R249). Issues a per-lane select command. -/
  | lsel (o : Ops)
  /-- LMM (R249). Issues a min or max command. -/
  | lmm (o : Ops)
  /-- LSHF (R249). Issues a shift command. -/
  | lshf (o : Ops)
  /-- LRED (R249). Issues one step of a cross-lane log-step reduction. -/
  | lred (o : Ops)
  /-- LMATCH (R249). Issues a key match command. -/
  | lmatch (o : Ops)
  /-- LCNT (R249). Issues a population count command. -/
  | lcnt (o : Ops)
  /-- LDONE (R252). Issues a completion-word command for a bed. -/
  | ldone (o : Ops)
  /-- OPINST (R232). Installs a matrix as a resident operator. -/
  | opinst (o : Ops)
  /-- OPSEAL (R233). Seals an installed operator. -/
  | opseal (o : Ops)
  /-- OPUNINST (R234). Removes an operator and returns its plots to cache mode. -/
  | opuninst (o : Ops)
  /-- OPSTAT (R235). Reads the state of a vector slot of an operator. -/
  | opstat (o : Ops)
  /-- OPQ (R236). Reads one matrix element of an operator. -/
  | opq (o : Ops)
  /-- NOP_SLOT (R66). Dual-word slot that does nothing. -/
  | nopSlot (p : Short)
  /-- VADD_SLOT (R66). Dual-word slot d = d + b, as VADD. -/
  | vaddSlot (x : Slot) (p : Short)
  /-- VSUB_SLOT (R66). Dual-word slot as VSUB. -/
  | vsubSlot (x : Slot) (p : Short)
  /-- VMUL_SLOT (R66). Dual-word slot as VMUL. -/
  | vmulSlot (x : Slot) (p : Short)
  /-- VMIN_SLOT (R66). Dual-word slot as VMIN. -/
  | vminSlot (x : Slot) (p : Short)
  /-- VMAX_SLOT (R66). Dual-word slot as VMAX. -/
  | vmaxSlot (x : Slot) (p : Short)
  /-- VADDS_SLOT (R66). Dual-word slot as VADDS. -/
  | vaddsSlot (x : Slot) (p : Short)
  /-- VSUBS_SLOT (R66). Dual-word slot as VSUBS. -/
  | vsubsSlot (x : Slot) (p : Short)
  /-- VAND_SLOT (R66). Dual-word slot as VAND. -/
  | vandSlot (x : Slot) (p : Short)
  /-- VOR_SLOT (R66). Dual-word slot as VOR. -/
  | vorSlot (x : Slot) (p : Short)
  /-- VXOR_SLOT (R66). Dual-word slot as VXOR. -/
  | vxorSlot (x : Slot) (p : Short)
  /-- VSHL_SLOT (R66). Dual-word slot as VSHL. -/
  | vshlSlot (x : Slot) (p : Short)
  /-- VSHR_SLOT (R66). Dual-word slot as VSHR. -/
  | vshrSlot (x : Slot) (p : Short)
  /-- VSAR_SLOT (R66). Dual-word slot as VSAR. -/
  | vsarSlot (x : Slot) (p : Short)
  /-- VMOV_SLOT (R66). Dual-word slot as VMOV. -/
  | vmovSlot (x : Slot) (p : Short)
  /-- FADD_SLOT (R66). Dual-word slot as FADD in RNE. -/
  | faddSlot (x : Slot) (p : Short)
  /-- FSUB_SLOT (R66). Dual-word slot as FSUB in RNE. -/
  | fsubSlot (x : Slot) (p : Short)
  /-- FMUL_SLOT (R66). Dual-word slot as FMUL in RNE. -/
  | fmulSlot (x : Slot) (p : Short)
  /-- FMIN_SLOT (R66). Dual-word slot as FMIN. -/
  | fminSlot (x : Slot) (p : Short)
  /-- FMAX_SLOT (R66). Dual-word slot as FMAX. -/
  | fmaxSlot (x : Slot) (p : Short)
  /-- SADD_SLOT (R66). Dual-word scalar slot as SADD. -/
  | saddSlot (x : Slot) (p : Short)
  /-- SSUB_SLOT (R66). Dual-word scalar slot as SSUB. -/
  | ssubSlot (x : Slot) (p : Short)
  /-- SAND_SLOT (R66). Dual-word scalar slot as SAND. -/
  | sandSlot (x : Slot) (p : Short)
  /-- SOR_SLOT (R66). Dual-word scalar slot as SOR. -/
  | sorSlot (x : Slot) (p : Short)
  /-- SXOR_SLOT (R66). Dual-word scalar slot as SXOR. -/
  | sxorSlot (x : Slot) (p : Short)
  /-- SSHL_SLOT (R66). Dual-word scalar slot as SSHL. -/
  | sshlSlot (x : Slot) (p : Short)
  /-- SSHR_SLOT (R66). Dual-word scalar slot as SSHR. -/
  | sshrSlot (x : Slot) (p : Short)
  /-- SSAR_SLOT (R66). Dual-word scalar slot as SSAR. -/
  | ssarSlot (x : Slot) (p : Short)
  /-- SMIN_SLOT (R66). Dual-word scalar slot as SMIN. -/
  | sminSlot (x : Slot) (p : Short)
  /-- SMAX_SLOT (R66). Dual-word scalar slot as SMAX. -/
  | smaxSlot (x : Slot) (p : Short)
  /-- KICK_REGISTER_WRITE (R265). A store to a queue's kick register publishes packets by taking the maximum. -/
  | kickRegisterWrite (queue : Nat) (value : DWord)
  /-- ILLEGAL_INSTRUCTION (R74). A team issues a word that is not an instruction and takes 0x01, 0x02 or 0x03, which ends the gang. -/
  | illegalInstruction (cause : Cause) (word : DWord)
  /-- MGMT_RESUME (R331). A write to the function record's resume register performs RESUME. -/
  | mgmtResume (function id : Nat)
  /-- MGMT_RESUME_KILL (R331). A resume register write with kill performs RESUME.kill. -/
  | mgmtResumeKill (function id : Nat)
  /-- ICMD_VA (R331). An icmd write starts an invalidation of a VA range of a context. -/
  | icmdVa (function : Nat)
  /-- ICMD_CTX (R331). An icmd write starts an invalidation of every translation of a context. -/
  | icmdCtx (function : Nat)
  /-- ICMD_ALL (R331). An icmd write starts an invalidation of every translation. -/
  | icmdAll (function : Nat)
  /-- MGMT_REGISTER_WRITE (R330). A store to a management window field with no behaviour of its own, a store of some of a doubleword's bytes, or a
  refused store. -/
  | mgmtRegisterWrite (writer : MgmtWriter) (offset : Nat) (value : HubStore)
  /-- QUEUE_RECORD_WRITE (R376). System software writes a host queue record's valid or suspended bit, which starts, stops, suspends or restarts the queue and clears its torn bit. -/
  | queueRecordWrite (queue : Nat) (valid suspended : Bool)
  /-- LONG_LATENCY_RESULT_ARRIVAL (R70). A long-latency result arrives and is written if its window has closed early. -/
  | longLatencyResultArrival (team window : Nat)
  /-- DEFERRED_DESTINATION_WRITE (R361). A deferred instruction completes its effect and writes its scalar destination. -/
  | deferredDestinationWrite (team index : Nat)
  /-- LOAD_STREAM_READAHEAD (R110). A load stream reads elements ahead of its pops. -/
  | loadStreamReadahead (team queue : Nat)
  /-- STARVATION_TIMER_EXPIRY (R39). A team's starvation timer reaches 224 and the team takes forced priority. -/
  | starvationTimerExpiry (team : Nat)
  /-- WATCHDOG_HALF (R353). A blocking wait passes half its watchdog limit and sets UIEN.WDWP. -/
  | watchdogHalf (team : Nat)
  /-- WATCHDOG_EXPIRY (R50). A blocking wait's watchdog, or the epilogue-stall count, expires and the gang ends with 0x21. -/
  | watchdogExpiry (team : Nat)
  /-- TRYWAIT_TIMEOUT (R202). A TRYWAIT's hinted time elapses and it writes 0. -/
  | trywaitTimeout (team : Nat)
  /-- BARTRYWAIT_TIMEOUT (R347). A BARTRYWAIT's hint elapses and it returns with done as found. -/
  | bartrywaitTimeout (team : Nat)
  /-- WAITA_EVALUATION (R201). A write notification re-evaluates a waiting WAITA or TRYWAIT, completing it when the condition holds. -/
  | waitaEvaluation (team : Nat)
  /-- USER_INTERRUPT_DELIVERY (R106). At a boundary a pending enabled user interrupt is delivered to UHANDLER. -/
  | userInterruptDelivery (team : Nat)
  /-- ENGINE_FAULT_CHARGE (R359). An engine command's fault is charged to the issuing team at its next boundary. -/
  | engineFaultCharge (team : Nat)
  /-- PREEMPTION (R368). The queue scheduler or system software saves a whole gang. -/
  | preemption (gang : Nat)
  /-- GANG_RESTORE (R368). A scheduler-pre-empted gang is readmitted and restored by the device. -/
  | gangRestore (image : Nat)
  /-- GANG_ADMISSION (R33). A waiting gang is admitted on a core once its whole occupancy fits. -/
  | gangAdmission (dispatch : Nat)
  /-- BLOCK_COMPACTION (R101). The copy engine repacks live core-store blocks to make room for an admission. -/
  | blockCompaction (core : Nat)
  /-- GANG_RETIREMENT (R46). A gang retires once all teams exited and all its engine commands completed. -/
  | gangRetirement (gang : Nat)
  /-- DISPATCH_COMPLETION (R217). A completed dispatch has its stores performed at sys scope and its signal raised. -/
  | dispatchCompletion (dispatch : Nat)
  /-- CONTINUATION_RELEASE (R271). The command processor releases a queued continuation as a dispatch. -/
  | continuationRelease (queue : Nat)
  /-- FETCHW_MAILBOX_WRITE (R272). The distributor writes the withdrawn coordinates and then the ready word. -/
  | fetchwMailboxWrite (gang : Nat)
  /-- DISPATCH_PACKET (R266). The command processor takes a valid DISPATCH packet and begins admission. -/
  | dispatchPacket (queue : Nat)
  /-- WAIT_PACKET (R267). The command processor takes a WAIT packet and blocks the queue. -/
  | waitPacket (queue : Nat)
  /-- WAIT_PACKET_COMPLETE (R267). An awaited signal reaches the value or errors and the WAIT completes. -/
  | waitPacketComplete (queue : Nat)
  /-- WAIT_PACKET_TIMEOUT (R267). A WAIT packet's watchdog expires and it completes with 0x21. -/
  | waitPacketTimeout (queue : Nat)
  /-- SIGNAL_PACKET (R267). A SIGNAL packet raises its signal after earlier packets, optionally posting SIGP. -/
  | signalPacket (queue : Nat)
  /-- NOP_PACKET (R267). A NOP packet raises its signal after earlier packets complete. -/
  | nopPacket (queue : Nat)
  /-- MALFORMED_PACKET (R266). A valid header of unknown type or non-zero zero field completes with 0x01. -/
  | malformedPacket (queue : Nat)
  /-- FAULT_RECORD_DELIVERY (R273). The hub writes a waiting fault record into a free ring slot. -/
  | faultRecordDelivery (function : Nat)
  /-- PAGE_WALK (R326). A walker resolves a TLB miss and sets accessed and dirty bits. -/
  | pageWalk (core ctx : Nat) (va : DWord) (access : Access)
  /-- TLB_INVALIDATION_COMPLETE (R328). An invalidation completes once every access using removed entries is performed or faulted. -/
  | tlbInvalidationComplete (id : Nat)
  /-- L1_DRAIN (R170). A dirty L1 word is written back within 16,384 ticks of its store. -/
  | l1Drain (core line : Nat)
  /-- REQUEST_FOR_OWNERSHIP (R220). A proxy slice requests word-masked ownership from the home directory. -/
  | requestForOwnership (slice line : Nat) (words : Word32)
  /-- SHARED_READ (R220). A slice requests a shared copy of a line from its home. -/
  | sharedRead (slice line : Nat)
  /-- FORWARD_READ (R220). The home forwards a read to the owning slice. -/
  | forwardRead (line : Nat)
  /-- FORWARD_FOR_OWNERSHIP (R220). The home forwards an ownership request to the owner. -/
  | forwardForOwnership (line : Nat)
  /-- FORWARD_ACKNOWLEDGEMENT (R220). The owner acknowledges a forward to the home. -/
  | forwardAcknowledgement (line : Nat)
  /-- INVALIDATION (R220). The home invalidates a sharer's copy. -/
  | invalidation (line : Nat)
  /-- INVALIDATION_ACK (R220). A sharer acknowledges an invalidation. -/
  | invalidationAck (line : Nat)
  /-- LINE_DATA_TRANSFER (R220). A slice sends line data with a word mask, merged word by word. -/
  | lineDataTransfer (line : Nat)
  /-- WRITE_BACK (R168). Dirty words are written back with a word mask and merged at home. -/
  | writeBack (site : CacheSite) (line : Nat)
  /-- RECALL (R220). The home recalls dirty words from an owning proxy slice. -/
  | recall (line : Nat)
  /-- BISNPINV (R221). A slice sends a back-invalidate snoop to the host. -/
  | bisnpinv (line : Nat)
  /-- BIRSP (R221). The host answers a back-invalidate, after writing back dirty data. -/
  | birsp (line : Nat) (dirty : List (Nat × Word32))
  /-- HOST_MEM_READ (R215). A host CXL.mem read is served at the home slice by the region's bias. -/
  | hostMemRead (at_ : HostAddr) (length : Nat) (cached exclusive : Bool)
  /-- HOST_MEM_WRITE (R215). A host CXL.mem write is performed at the home slice. -/
  | hostMemWrite (at_ : HostAddr) (bytes : List (Option Byte))
  /-- ATOMICOP_COMPLETION (R387). A CXL.io AtomicOp completes, rebuilding old values or falling back or failing. -/
  | atomicopCompletion (team : Nat) (status : BitVec 3) (old : DWord)
  /-- ATOMICOP_TIMEOUT (R387). A CXL.io AtomicOp reaches its 50 ms completion timeout. -/
  | atomicopTimeout (team : Nat)
  /-- APPLY_SLOT_WRITE (R227). A write reaches an apply slot at the home slice and updates fill and overwrite state. -/
  | applySlotWrite (slice index : Nat)
  /-- OPERATOR_FIRE (R178). The operator unit computes a snapshot and writes its result slot and status word. -/
  | operatorFire (run : FireRun)
  /-- COPY_COMMAND_START (R276). The copy engine starts a command once its edges have completed. -/
  | copyCommandStart (core command runs : Nat)
  /-- COPY_COMMAND_COMPLETE (R276). A copy command's payload is performed and its completion word and credit are written. -/
  | copyCommandComplete (core command : Nat)
  /-- MATRIX_COMMAND_START (R314). The matrix engine reaches the next queued command and performs it whole. -/
  | matrixCommandStart (core : Nat)
  /-- EMULATION_COMPLETE (R316). Firmware writes the emulated product and restarts the matrix queue. For format codes 7 to 14 the firmware
  gives what it defines, or nothing where it defines no format. -/
  | emulationComplete (core : Nat) (firmware : Option Emulated)
  /-- EPILOGUE_DRAIN_START (R312). The epilogue starts draining the next pending tile. -/
  | epilogueDrainStart (core : Nat)
  /-- EPILOGUE_DRAIN_END (R310). A tile's drain ends and its ACCADV completes. -/
  | epilogueDrainEnd (core : Nat)
  /-- LOAM_COMMAND_PERFORM (R253). A command of a core arrives at the slice, if it has not, and the slice's loam engine performs the next
  arrived bed command, up to a number of runs of its memory accesses. -/
  | loamCommandPerform (slice core command runs : Nat)
  /-- NETWORK_COMMAND_ACCEPT (R290). The network engine takes a command and numbers its packets. -/
  | networkCommandAccept (core : Nat)
  /-- PACKET_ARRIVAL (R290). A packet arrives at the receiver and is translated and written. -/
  | packetArrival (conn seq buffer offset : Nat) (bytes : List Byte)
  /-- SEND_ACKNOWLEDGEMENT (R291). The receiver's acknowledgement returns and the send completes. -/
  | sendAcknowledgement (conn send : Nat) (status : Byte)
  /-- CONNECTION_FAILURE (R294). A connection without a working path for 100 ms is marked failed. -/
  | connectionFailure (change : ConnChange)
  /-- NUNPOST_COMPLETE (R289). A revocation completes once every packet up to h is published or rejected. -/
  | nunpostComplete (conn buffer : Nat)
  /-- REPLAY_AUDIT (R375). A sampled gang is replayed on a core of another die, and the two signatures are compared; `core`
  is where the replay is begun, or runs. -/
  | replayAudit (dispatch glin core : Nat)
  /-- UNATTRIBUTABLE_ERROR (R376). A hardware error naming no gang tears down a queue or records 0x42. -/
  | unattributableError (scope : ErrorScope)
  /-- OPSLOT_UNINST (R333). Writing UNINST to an operator slot record removes its operator. -/
  | opslotUninst (slice slot : Nat)
  /-- BED_DESTROY (R245). Writing DESTROY to a bed record destroys the bed at a point in its order. -/
  | bedDestroy (slice bed : Nat)
  /-- BIAS_TO_DEVICE (R385). A bias command flips a region to device bias by back-invalidating host copies. -/
  | biasToDevice (region : Nat)
  /-- BIAS_TO_HOST (R385). A bias command flips a region to host bias by writing back slice copies. -/
  | biasToHost (region : Nat)
  /-- BIAS_FLIP_COMPLETE (R386). A bias flip completes and busy clears, releasing waiting host accesses. -/
  | biasFlipComplete (region : Nat)
  /-- PLACEMENT_MASK_LOW_WRITE (R336). A store to a slice-set mask's low doubleword is staged. -/
  | placementMaskLowWrite (function set : Nat) (value : DWord)
  /-- PLACEMENT_MASK_HIGH_WRITE (R336). A store to the high doubleword changes the whole slice set. -/
  | placementMaskHighWrite (function set : Nat) (value : DWord)
  /-- ISLAND_REQUEST_NOMINAL (R392). An island control write requests the nominal operating point. -/
  | islandRequestNominal (island : Nat)
  /-- ISLAND_REQUEST_HALF (R392). An island control write requests half rate. -/
  | islandRequestHalf (island : Nat)
  /-- ISLAND_REQUEST_QUARTER (R392). An island control write requests quarter rate. -/
  | islandRequestQuarter (island : Nat)
  /-- ISLAND_REQUEST_GATE (R392). An island control write requests gating when idle. -/
  | islandRequestGate (island : Nat)
  /-- ISLAND_WAKE (R16). A gated island wakes when work, a command or an access arrives. -/
  | islandWake (island : Nat)
  /-- THERMAL_THROTTLE (R17). The management block throttles or releases islands under the power limit. -/
  | thermalThrottle (island : Nat) (limit : BitVec 2)
  /-- CORE_RETEST (R391). A write to the retest register runs self-test on a suspect core. -/
  | coreRetest (core : Nat) (failure : Option TestFailure)
  /-- ATTESTATION_REQUEST (R394). A write of the report buffer address starts an attestation report. -/
  | attestationRequest (pa : Nat)
  /-- ATTESTATION_REPORT_DONE (R394). The security block finishes writing the report and sets DONE. -/
  | attestationReportDone
  /-- FUNCTION_LEVEL_RESET (R389). A Function Level Reset ends a virtual function's gangs, beds and operators. -/
  | functionLevelReset (function : Nat)
  /-- POWER_ON_RESET (R13). The device leaves reset, checks firmware images and begins self-test. -/
  | powerOnReset (images : List FirmwareImage)
  /-- SELF_TEST_COMPLETE (R391). Self-test completes and the device becomes ready or enters the safe state. -/
  | selfTestComplete (failure : Option TestFailure)
  /-- UNCORRECTABLE_ERROR (R175). An error arises of itself in a DRAM word, an SRAM array or a bed row segment; it is either corrected and logged or marks the word or lanes poisoned. -/
  | uncorrectableError (site : ErrorSite) (correctable : Bool)
  /-- HOST_SNOOP (R216). The host snoops a host-memory line that a slice holds under CXL.cache, and the slice answers and gives up or downgrades its copy. -/
  | hostSnoop (line : Nat) (invalidate : Bool)
  /-- CXL_CACHE_RESPONSE (R387). The host answers a device CXL.cache request for a host-memory line, granting data or ownership or refusing it. -/
  | cxlCacheResponse (line : Nat) (response : CxlResponse)
  /-- OWNERSHIP_TIMEOUT (R388). A CXL.cache ownership request for a device atomic on host memory times out, and the atomic raises 0x52. -/
  | ownershipTimeout (team : Nat)
  /-- PACKET_RETRANSMISSION (R290). The transport retransmits a lost packet of a connection. -/
  | packetRetransmission (conn seq buffer offset : Nat) (bytes : List Byte)
  /-- HARDWARE_PREFETCH (R166). An L1 or slice hardware prefetcher fills a line of its own accord within one 4 KiB granule. -/
  | hardwarePrefetch (core : Nat) (ctx : Nat) (va : DWord) (intoL1 : Bool)
  /-- MAPPING_VALID_CLEAR (R332). System software clears a scratchpad mapping entry's valid bit while its gang is resident, and the mapping is written back and removed. -/
  | mappingValidClear (ctx entry : Nat)
  /-- MGMT_GANG_RESTORE (R368). System software restores a gang that was saved with CTXSAVE through the management window. -/
  | mgmtGangRestore (area : DWord) (ctx : Nat)
  /-- HOST_ATOMICOP (R384). The host sends a CXL.io AtomicOp that the device performs as completer. -/
  | hostAtomicop (op : HostAtomic) (at_ : HostAddr) (size : Nat) (operand compare : DWord)
  deriving DecidableEq, Repr

end Sys2Proof
end

