-- ==== Sys2Proof/Machine/Formats.lean ====
section
/-! DEFINITION. The fields that each instruction of the opcode map accepts: specifier kinds, modifier bits, type codes, mode, masking
and lookahead (R52 to R75), the limits of each instruction's variant, and the checks of R74 on them. -/
namespace Sys2Proof

/-- The code of an element type (R59). -/
def ElemType.code (t : ElemType) : BitVec 4 :=
  match t with
  | .untyped => 0 | .s8 => 1 | .s16 => 2 | .s32 => 3 | .s64 => 4 | .n8 => 5 | .n16 => 6 | .n32 => 7 | .n64 => 8
  | .f16 => 9 | .bf16 => 10 | .f32 => 11 | .d8 => 12

/-- The element type of a code; none for the reserved codes 13 to 15 (R59). -/
def ElemType.ofCode (c : BitVec 4) : Option ElemType :=
  match c.toNat with
  | 0 => some .untyped | 1 => some .s8 | 2 => some .s16 | 3 => some .s32 | 4 => some .s64 | 5 => some .n8 | 6 => some .n16
  | 7 => some .n32 | 8 => some .n64 | 9 => some .f16 | 10 => some .bf16 | 11 => some .f32 | 12 => some .d8
  | _ => none

/-- The size in bytes of an element (R59, R76, R77). -/
def ElemType.size (t : ElemType) : Nat :=
  match t with
  | .untyped => 0 | .s8 => 1 | .n8 => 1 | .d8 => 1 | .s16 => 2 | .n16 => 2 | .f16 => 2 | .bf16 => 2
  | .s32 => 4 | .n32 => 4 | .f32 => 4 | .s64 => 8 | .n64 => 8

/-- Whether the type is a signed integer (R76). -/
def ElemType.isSigned (t : ElemType) : Bool := t = .s8 || t = .s16 || t = .s32 || t = .s64

/-- Whether the type is an integer (R76). -/
def ElemType.isInt (t : ElemType) : Bool := t.isSigned || t = .n8 || t = .n16 || t = .n32 || t = .n64

/-- What the checks of a word need to know of the issuing team: whether its context is privileged (R73), its V and TW, and which of its
queue registers are bound to a load stream or the epilogue output queue (R67). -/
structure Env where
  priv : Bool
  vregs : Nat
  tw : Nat
  longQ : BitVec 16
  deriving DecidableEq, Repr

/-- The kinds of a specifier field (R55), with those that the chapters of the engines add: an engine command's target (R246, R277, R286,
R297), an even scalar pair (R246), the scalar groups of R277 and R286, a code (R364) and a special register number (R104). -/
inductive Kind where
  | vector | scalar | mask | barrier | namedQueue | queueReg | target | none | code | special | evenScalar | copyGroup | netGroup
  deriving DecidableEq, Repr

/-- Whether a field of the kind accepts the value (R55, R108, R246, R277, R286). -/
def Kind.accepts (env : Env) (k : Kind) (n : BitVec 8) : Bool :=
  match k with
  | .vector => n.toNat < env.vregs
  | .scalar => n.toNat < 64
  | .mask => n.toNat < 8
  | .barrier => n.toNat < 16
  | .namedQueue => n.toNat < 8
  | .queueReg => n.toNat < 16
  | .target => n.toNat < 16
  | .none => true
  | .code => true
  | .special => true
  | .evenScalar => n.toNat < 64 && n.toNat % 2 = 0
  | .copyGroup => 8 ≤ n.toNat && n.toNat ≤ 56 && n.toNat % 8 = 0
  | .netGroup => 4 ≤ n.toNat && n.toNat ≤ 60 && n.toNat % 4 = 0

/-- The modifier bits of an F word (R54). -/
inductive Mod where
  | qd | qa | qb | sb | ia | ib | ke
  deriving DecidableEq, Repr

/-- What an F-form instruction accepts: the kinds of d, a and b (which may depend on its other fields), the modifier bits, the type
codes, whether its mode field may be non-zero, and whether it is long-latency of itself (R67). -/
structure FSpec where
  kinds : Ops → Kind × Kind × Kind
  mods : List Mod
  types : List ElemType
  modeAny : Bool
  long : Ops → Bool

/-- What an L-form instruction accepts: the kinds of d and a, and whether it is long-latency (R62, R67). -/
structure LSpec where
  kindD : Kind
  kindA : Kind
  long : Bool
  deriving DecidableEq, Repr

/-- The F-form instructions of the opcode map and what each accepts (R72, R117 to R357). -/
def fSpec (op : Nat) : Option FSpec :=
  match op with
  | 0x000 => some ⟨(fun _ => (.scalar, .scalar, .scalar)), [.ia, .ib], [.s64, .n64], false, (fun _ => false)⟩ -- SADD
  | 0x001 => some ⟨(fun _ => (.scalar, .scalar, .scalar)), [.ia, .ib], [.s64, .n64], false, (fun _ => false)⟩ -- SSUB
  | 0x002 => some ⟨(fun _ => (.scalar, .scalar, .scalar)), [.ia, .ib], [.s64, .n64], false, (fun _ => false)⟩ -- SMUL
  | 0x003 => some ⟨(fun _ => (.scalar, .scalar, .scalar)), [.ia, .ib], [.s64, .n64], false, (fun _ => false)⟩ -- SMULH
  | 0x004 => some ⟨(fun _ => (.scalar, .scalar, .scalar)), [.ia, .ib], [.s64, .n64], false, (fun _ => false)⟩ -- SDIV
  | 0x005 => some ⟨(fun _ => (.scalar, .scalar, .scalar)), [.ia, .ib], [.s64, .n64], false, (fun _ => false)⟩ -- SREM
  | 0x006 => some ⟨(fun _ => (.scalar, .scalar, .scalar)), [.ia, .ib], [.s64, .n64], false, (fun _ => false)⟩ -- SAND
  | 0x007 => some ⟨(fun _ => (.scalar, .scalar, .scalar)), [.ia, .ib], [.s64, .n64], false, (fun _ => false)⟩ -- SOR
  | 0x008 => some ⟨(fun _ => (.scalar, .scalar, .scalar)), [.ia, .ib], [.s64, .n64], false, (fun _ => false)⟩ -- SXOR
  | 0x009 => some ⟨(fun _ => (.scalar, .scalar, .scalar)), [.ia, .ib], [.s64, .n64], false, (fun _ => false)⟩ -- SSHL
  | 0x00A => some ⟨(fun _ => (.scalar, .scalar, .scalar)), [.ia, .ib], [.s64, .n64], false, (fun _ => false)⟩ -- SSHR
  | 0x00B => some ⟨(fun _ => (.scalar, .scalar, .scalar)), [.ia, .ib], [.s64, .n64], false, (fun _ => false)⟩ -- SSAR
  | 0x00C => some ⟨(fun _ => (.scalar, .scalar, .scalar)), [.ia, .ib], [.s64, .n64], false, (fun _ => false)⟩ -- SMIN
  | 0x00D => some ⟨(fun _ => (.scalar, .scalar, .scalar)), [.ia, .ib], [.s64, .n64], false, (fun _ => false)⟩ -- SMAX
  | 0x00E => some ⟨(fun _ => (.scalar, .scalar, .scalar)), [.ia, .ib], [.s64, .n64], false, (fun _ => false)⟩ -- SCMP
  | 0x00F => some ⟨(fun _ => (.scalar, .scalar, .scalar)), [.ia, .ib], [.s64, .n64], false, (fun _ => false)⟩ -- SLEA
  | 0x047 => some ⟨(fun _ => (.scalar, .scalar, .none)), [], [.untyped], false, (fun _ => false)⟩ -- JMP
  | 0x049 => some ⟨(fun _ => (.none, .scalar, .none)), [], [.untyped], false, (fun _ => false)⟩ -- RET
  | 0x04B => some ⟨(fun _ => (.none, .none, .none)), [], [.untyped], false, (fun _ => false)⟩ -- EXIT
  | 0x080 => some ⟨(fun o => ((if o.a = .reg 0 then .vector else .scalar), .special, .none)), [.ke], [.untyped], false, (fun o => o.a = .reg 0x0C || o.a = .reg 0x0D)⟩ -- SRD
  | 0x081 => some ⟨(fun _ => (.special, .scalar, .none)), [.ia], [.untyped], false, (fun _ => false)⟩ -- SWR
  | 0x088 => some ⟨(fun _ => (.none, .none, .none)), [], [.untyped], false, (fun _ => false)⟩ -- NOP
  | 0x089 => some ⟨(fun _ => (.none, .code, .none)), [], [.untyped], false, (fun _ => false)⟩ -- TRAP
  | 0x08A => some ⟨(fun _ => (.none, .none, .none)), [], [.untyped], false, (fun _ => false)⟩ -- URET
  | 0x08B => some ⟨(fun _ => (.scalar, .scalar, .code)), [], [.untyped], false, (fun _ => false)⟩ -- ECALL
  | 0x08C => some ⟨(fun _ => (.none, .code, .none)), [], [.untyped], false, (fun _ => false)⟩ -- HALT
  | 0x08D => some ⟨(fun _ => (.none, .none, .none)), [], [.untyped], false, (fun _ => false)⟩ -- YIELD
  | 0x08E => some ⟨(fun _ => (.scalar, .scalar, .none)), [.ia], [.untyped], false, (fun _ => false)⟩ -- EVSEL
  | 0x08F => some ⟨(fun _ => (.scalar, .none, .none)), [], [.untyped], false, (fun _ => false)⟩ -- EVRD
  | 0x090 => some ⟨(fun _ => (.scalar, .scalar, .scalar)), [], [.untyped], false, (fun _ => false)⟩ -- CTXSAVE
  | 0x091 => some ⟨(fun _ => (.scalar, .scalar, .none)), [], [.untyped], false, (fun _ => false)⟩ -- CTXRST
  | 0x092 => some ⟨(fun _ => (.scalar, .scalar, .scalar)), [], [.untyped], false, (fun _ => false)⟩ -- RESUME
  | 0x093 => some ⟨(fun o => (.scalar, (if o.var = 0 || o.var = 1 then .scalar else .none), (if o.var = 0 then .scalar else .none))), [], [.untyped], false, (fun _ => false)⟩ -- TLBINV
  | 0x0C0 => some ⟨(fun _ => (.vector, .vector, .vector)), [.qd, .qa, .qb, .sb, .ia, .ib, .ke], [.s32, .n32], false, (fun _ => false)⟩ -- VADD
  | 0x0C1 => some ⟨(fun _ => (.vector, .vector, .vector)), [.qd, .qa, .qb, .sb, .ia, .ib, .ke], [.s32, .n32], false, (fun _ => false)⟩ -- VSUB
  | 0x0C2 => some ⟨(fun _ => (.vector, .vector, .vector)), [.qd, .qa, .qb, .sb, .ia, .ib, .ke], [.s32, .n32], false, (fun _ => false)⟩ -- VMUL
  | 0x0C3 => some ⟨(fun _ => (.vector, .vector, .vector)), [.qd, .qa, .qb, .sb, .ia, .ib, .ke], [.s32, .n32], false, (fun _ => false)⟩ -- VMULH
  | 0x0C4 => some ⟨(fun _ => (.vector, .vector, .vector)), [.qa, .qb, .sb, .ia, .ib, .ke], [.s32, .n32], false, (fun _ => false)⟩ -- VMAD
  | 0x0C5 => some ⟨(fun _ => (.vector, .vector, .vector)), [.qd, .qa, .qb, .sb, .ia, .ib, .ke], [.s32, .n32], false, (fun _ => false)⟩ -- VADDS
  | 0x0C6 => some ⟨(fun _ => (.vector, .vector, .vector)), [.qd, .qa, .qb, .sb, .ia, .ib, .ke], [.s32, .n32], false, (fun _ => false)⟩ -- VSUBS
  | 0x0C7 => some ⟨(fun _ => (.vector, .vector, .vector)), [.qd, .qa, .qb, .sb, .ia, .ib, .ke], [.s32, .n32], false, (fun _ => false)⟩ -- VAND
  | 0x0C8 => some ⟨(fun _ => (.vector, .vector, .vector)), [.qd, .qa, .qb, .sb, .ia, .ib, .ke], [.s32, .n32], false, (fun _ => false)⟩ -- VOR
  | 0x0C9 => some ⟨(fun _ => (.vector, .vector, .vector)), [.qd, .qa, .qb, .sb, .ia, .ib, .ke], [.s32, .n32], false, (fun _ => false)⟩ -- VXOR
  | 0x0CA => some ⟨(fun _ => (.vector, .vector, .vector)), [.qd, .qa, .qb, .sb, .ia, .ib, .ke], [.s32, .n32], false, (fun _ => false)⟩ -- VSHL
  | 0x0CB => some ⟨(fun _ => (.vector, .vector, .vector)), [.qd, .qa, .qb, .sb, .ia, .ib, .ke], [.s32, .n32], false, (fun _ => false)⟩ -- VSHR
  | 0x0CC => some ⟨(fun _ => (.vector, .vector, .vector)), [.qd, .qa, .qb, .sb, .ia, .ib, .ke], [.s32, .n32], false, (fun _ => false)⟩ -- VSAR
  | 0x0CD => some ⟨(fun _ => (.vector, .vector, .vector)), [.qd, .qa, .qb, .sb, .ia, .ib, .ke], [.s32, .n32], false, (fun _ => false)⟩ -- VMIN
  | 0x0CE => some ⟨(fun _ => (.vector, .vector, .vector)), [.qd, .qa, .qb, .sb, .ia, .ib, .ke], [.s32, .n32], false, (fun _ => false)⟩ -- VMAX
  | 0x0CF => some ⟨(fun _ => (.mask, .vector, .vector)), [.qa, .qb, .sb, .ia, .ib, .ke], [.s32, .n32], false, (fun _ => false)⟩ -- VCMP
  | 0x0D0 => some ⟨(fun _ => (.vector, .vector, .vector)), [.qd, .qa, .qb, .sb, .ia, .ib, .ke], [.s32, .n32, .f32, .f16], false, (fun _ => false)⟩ -- VSEL
  | 0x0D1 => some ⟨(fun _ => (.vector, .none, .vector)), [.qd, .qb, .sb, .ib, .ke], [.s32, .n32, .f32, .f16], false, (fun _ => false)⟩ -- VMOV
  | 0x100 => some ⟨(fun _ => (.vector, .vector, .vector)), [.qd, .qa, .qb, .sb, .ia, .ib, .ke], [.f32, .f16], true, (fun _ => false)⟩ -- FADD
  | 0x101 => some ⟨(fun _ => (.vector, .vector, .vector)), [.qd, .qa, .qb, .sb, .ia, .ib, .ke], [.f32, .f16], true, (fun _ => false)⟩ -- FSUB
  | 0x102 => some ⟨(fun _ => (.vector, .vector, .vector)), [.qd, .qa, .qb, .sb, .ia, .ib, .ke], [.f32, .f16], true, (fun _ => false)⟩ -- FMUL
  | 0x103 => some ⟨(fun _ => (.vector, .vector, .vector)), [.qa, .qb, .sb, .ia, .ib, .ke], [.f32, .f16], true, (fun _ => false)⟩ -- FFMA
  | 0x104 => some ⟨(fun _ => (.vector, .vector, .vector)), [.qd, .qa, .qb, .sb, .ia, .ib, .ke], [.f32, .f16], false, (fun _ => false)⟩ -- FMIN
  | 0x105 => some ⟨(fun _ => (.vector, .vector, .vector)), [.qd, .qa, .qb, .sb, .ia, .ib, .ke], [.f32, .f16], false, (fun _ => false)⟩ -- FMAX
  | 0x106 => some ⟨(fun _ => (.mask, .vector, .vector)), [.qa, .qb, .sb, .ia, .ib, .ke], [.f32, .f16], false, (fun _ => false)⟩ -- FCMP
  | 0x110 => some ⟨(fun _ => (.vector, .vector, .none)), [.qd, .qa, .ia, .ke], [.f32, .f16], false, (fun _ => true)⟩ -- FRCP
  | 0x111 => some ⟨(fun _ => (.vector, .vector, .none)), [.qd, .qa, .ia, .ke], [.f32, .f16], false, (fun _ => true)⟩ -- FSQRT
  | 0x112 => some ⟨(fun _ => (.vector, .vector, .none)), [.qd, .qa, .ia, .ke], [.f32, .f16], false, (fun _ => true)⟩ -- FRSQ
  | 0x113 => some ⟨(fun _ => (.vector, .vector, .none)), [.qd, .qa, .ia, .ke], [.f32, .f16], false, (fun _ => true)⟩ -- FEXP2
  | 0x114 => some ⟨(fun _ => (.vector, .vector, .none)), [.qd, .qa, .ia, .ke], [.f32, .f16], false, (fun _ => true)⟩ -- FLOG2
  | 0x115 => some ⟨(fun _ => (.vector, .vector, .none)), [.qd, .qa, .ia, .ke], [.f32, .f16], false, (fun _ => true)⟩ -- FSIN
  | 0x116 => some ⟨(fun _ => (.vector, .vector, .none)), [.qd, .qa, .ia, .ke], [.f32, .f16], false, (fun _ => true)⟩ -- FCOS
  | 0x117 => some ⟨(fun _ => (.vector, .vector, .none)), [.qd, .qa, .ia, .ke], [.f32, .f16], false, (fun _ => true)⟩ -- FTANH
  | 0x140 => some ⟨(fun _ => (.vector, .vector, .none)), [.qd, .qa, .ke], [.s8, .s16, .s32, .n8, .n16, .n32, .f16, .bf16, .f32, .d8], true, (fun _ => false)⟩ -- CVT
  | 0x141 => some ⟨(fun _ => (.vector, .vector, .none)), [.qd, .qa, .ke], [.s8, .s16, .s32, .n8, .n16, .n32, .f16, .bf16, .f32, .d8], true, (fun _ => false)⟩ -- CVTS
  | 0x142 => some ⟨(fun _ => (.vector, .vector, .vector)), [.qa, .qb, .sb, .ke], [.f32, .f16], false, (fun _ => false)⟩ -- D8PACK
  | 0x143 => some ⟨(fun _ => (.vector, .vector, .vector)), [.qd, .qa, .qb, .sb, .ke], [.f32, .f16, .bf16], true, (fun _ => false)⟩ -- D8UNP
  | 0x144 => some ⟨(fun _ => (.vector, .vector, .none)), [.qd, .qa, .ke], [.f32, .f16], false, (fun _ => false)⟩ -- S10MK
  | 0x145 => some ⟨(fun _ => (.vector, .vector, .vector)), [.qd, .qa, .qb, .sb, .ke], [.f32, .f16], true, (fun _ => false)⟩ -- S10AP
  | 0x180 => some ⟨(fun _ => (.vector, .vector, .scalar)), [.qd, .qa, .ib, .ke], [.s32, .n32, .f32, .f16], false, (fun _ => false)⟩ -- XROT
  | 0x181 => some ⟨(fun _ => (.vector, .vector, .scalar)), [.qd, .qa, .ib, .ke], [.s32, .n32, .f32, .f16], false, (fun _ => false)⟩ -- XBFLY
  | 0x182 => some ⟨(fun _ => (.vector, .vector, .vector)), [.qd, .qa, .qb, .sb, .ib, .ke], [.s32, .n32, .f32, .f16], false, (fun _ => true)⟩ -- XSHFL
  | 0x183 => some ⟨(fun _ => (.vector, .vector, .scalar)), [.qd, .qa, .ib, .ke], [.s32, .n32, .f32, .f16], false, (fun _ => false)⟩ -- XBCST
  | 0x184 => some ⟨(fun _ => (.vector, .vector, .none)), [.qd, .qa, .ke], [.s32, .n32, .f32, .f16], false, (fun _ => false)⟩ -- XRED
  | 0x185 => some ⟨(fun _ => (.vector, .vector, .none)), [.qd, .qa, .ke], [.s32, .n32, .f32, .f16], false, (fun _ => false)⟩ -- XSCAN
  | 0x186 => some ⟨(fun _ => (.scalar, .vector, .scalar)), [.qa, .ib, .ke], [.s32, .n32], false, (fun _ => false)⟩ -- XFIND
  | 0x1A0 => some ⟨(fun _ => (.mask, .mask, .mask)), [], [.untyped], false, (fun _ => false)⟩ -- KAND
  | 0x1A1 => some ⟨(fun _ => (.mask, .mask, .mask)), [], [.untyped], false, (fun _ => false)⟩ -- KOR
  | 0x1A2 => some ⟨(fun _ => (.mask, .mask, .mask)), [], [.untyped], false, (fun _ => false)⟩ -- KXOR
  | 0x1A3 => some ⟨(fun _ => (.mask, .mask, .mask)), [], [.untyped], false, (fun _ => false)⟩ -- KANDN
  | 0x1A4 => some ⟨(fun _ => (.scalar, .mask, .none)), [], [.untyped], false, (fun _ => false)⟩ -- KPOP
  | 0x1A5 => some ⟨(fun _ => (.scalar, .mask, .none)), [], [.untyped], false, (fun _ => false)⟩ -- KFIRST
  | 0x1A6 => some ⟨(fun _ => (.mask, .none, .none)), [], [.untyped], false, (fun _ => false)⟩ -- EMGET
  | 0x1A7 => some ⟨(fun _ => (.none, .mask, .none)), [], [.untyped], false, (fun _ => false)⟩ -- EMSET
  | 0x1A8 => some ⟨(fun _ => (.none, .mask, .none)), [], [.untyped], false, (fun _ => false)⟩ -- EMAND
  | 0x1C0 => some ⟨(fun _ => (.vector, .scalar, .vector)), [.sb, .ib, .ke], [.s8, .s16, .s32, .s64, .n8, .n16, .n32, .n64, .f16, .bf16, .f32, .d8], true, (fun _ => true)⟩ -- LD
  | 0x1C1 => some ⟨(fun _ => (.vector, .scalar, .vector)), [.sb, .ib, .ke], [.s8, .s16, .s32, .s64, .n8, .n16, .n32, .n64, .f16, .bf16, .f32, .d8], true, (fun _ => false)⟩ -- ST
  | 0x1C2 => some ⟨(fun _ => (.scalar, .scalar, .scalar)), [.ib], [.s8, .s16, .s32, .s64, .n8, .n16, .n32, .n64], true, (fun _ => true)⟩ -- LDS
  | 0x1C3 => some ⟨(fun _ => (.scalar, .scalar, .scalar)), [.ib], [.s8, .s16, .s32, .s64, .n8, .n16, .n32, .n64], true, (fun _ => false)⟩ -- STS
  | 0x1C4 => some ⟨(fun _ => (.vector, .scalar, .vector)), [.ia, .ib, .sb, .ke], [.s8, .s16, .s32, .s64, .n8, .n16, .n32, .n64, .f16, .bf16, .f32, .d8], false, (fun _ => true)⟩ -- LDL
  | 0x1C5 => some ⟨(fun _ => (.vector, .scalar, .vector)), [.ia, .ib, .sb, .ke], [.s8, .s16, .s32, .s64, .n8, .n16, .n32, .n64, .f16, .bf16, .f32, .d8], false, (fun _ => false)⟩ -- STL
  | 0x1C8 => some ⟨(fun _ => (.none, .scalar, .vector)), [.sb, .ib, .ke], [.untyped], true, (fun _ => false)⟩ -- PF
  | 0x1C9 => some ⟨(fun _ => (.none, .scalar, .vector)), [.sb, .ib, .ke], [.untyped], false, (fun _ => false)⟩ -- DISC
  | 0x1CA => some ⟨(fun _ => (.none, .scalar, .vector)), [.sb, .ib, .ke], [.untyped], false, (fun _ => false)⟩ -- FLUSH
  | 0x1CB => some ⟨(fun _ => (.none, .scalar, .vector)), [.sb, .ib, .ke], [.untyped], false, (fun _ => false)⟩ -- INV
  | 0x200 => some ⟨(fun _ => (.vector, .scalar, .vector)), [.sb, .ib, .ke], [.s32, .s64, .n32, .n64], false, (fun _ => true)⟩ -- ATOM
  | 0x201 => some ⟨(fun _ => (.vector, .scalar, .vector)), [.sb, .ib, .ke], [.s32, .s64, .n32, .n64], false, (fun _ => false)⟩ -- RED
  | 0x202 => some ⟨(fun _ => (.scalar, .scalar, .scalar)), [.ib], [.s32, .s64, .n32, .n64], false, (fun _ => true)⟩ -- SATOM
  | 0x208 => some ⟨(fun _ => (.none, .none, .none)), [], [.untyped, .s8, .s16, .s32, .s64, .n8], false, (fun _ => false)⟩ -- FENCE
  | 0x209 => some ⟨(fun o => ((if o.mode = 1 then .scalar else .none), .scalar, .scalar)), [.ib], [.s32, .s64, .n32, .n64], true, (fun _ => false)⟩ -- WAITA
  | 0x20A => some ⟨(fun _ => (.scalar, .scalar, .scalar)), [.ib], [.s32, .s64, .n32, .n64], true, (fun _ => false)⟩ -- TRYWAIT
  | 0x240 => some ⟨(fun _ => (.barrier, .scalar, .none)), [.ia], [.untyped], false, (fun _ => false)⟩ -- BARINIT
  | 0x241 => some ⟨(fun _ => (.scalar, .barrier, .none)), [], [.untyped], false, (fun _ => false)⟩ -- BARARR
  | 0x242 => some ⟨(fun o => ((if o.var.getLsbD 0 then .scalar else .none), .barrier, .scalar)), [.ib], [.untyped], false, (fun _ => false)⟩ -- BARTX
  | 0x243 => some ⟨(fun _ => (.scalar, .barrier, .scalar)), [], [.untyped], true, (fun _ => false)⟩ -- BARWAIT
  | 0x244 => some ⟨(fun _ => (.scalar, .barrier, .none)), [], [.untyped], true, (fun _ => false)⟩ -- BARSYNC
  | 0x245 => some ⟨(fun _ => (.scalar, .barrier, .scalar)), [], [.untyped], true, (fun _ => false)⟩ -- BARTRYWAIT
  | 0x248 => some ⟨(fun _ => (.namedQueue, .scalar, .scalar)), [.ib], [.untyped], false, (fun _ => false)⟩ -- CINIT
  | 0x249 => some ⟨(fun _ => (.namedQueue, .scalar, .none)), [.ia], [.untyped], true, (fun _ => false)⟩ -- PUSHC
  | 0x24A => some ⟨(fun _ => (.scalar, .namedQueue, .none)), [], [.untyped], true, (fun _ => false)⟩ -- POPC
  | 0x24B => some ⟨(fun _ => (.scalar, .namedQueue, .none)), [], [.untyped], true, (fun _ => false)⟩ -- TRYPOPC
  | 0x250 => some ⟨(fun _ => (.scalar, .scalar, .scalar)), [], [.untyped], false, (fun _ => false)⟩ -- FETCHW
  | 0x251 => some ⟨(fun _ => (.scalar, .scalar, .none)), [], [.untyped], false, (fun _ => false)⟩ -- SPAWN
  | 0x252 => some ⟨(fun _ => (.scalar, .scalar, .scalar)), [], [.untyped], false, (fun _ => false)⟩ -- JOIN
  | 0x280 => some ⟨(fun o => (.queueReg, (if o.var = 1 || o.var = 2 || o.var = 7 then .scalar else .none), (if o.var = 1 || o.var = 2 then .scalar else .none))), [], [.untyped, .s8, .s16, .s32, .n8, .n16, .n32, .f16, .bf16, .f32, .d8], false, (fun _ => false)⟩ -- QBIND
  | 0x281 => some ⟨(fun _ => (.queueReg, .none, .none)), [], [.untyped], false, (fun _ => false)⟩ -- QUNBIND
  | 0x282 => some ⟨(fun _ => (.scalar, .queueReg, .none)), [], [.untyped], false, (fun _ => false)⟩ -- QINFO
  | 0x2C0 => some ⟨(fun _ => (.target, .scalar, .scalar)), [.qd], [.untyped], false, (fun _ => false)⟩ -- MMA
  | 0x2C1 => some ⟨(fun _ => (.target, .scalar, .scalar)), [.qd], [.untyped], false, (fun _ => false)⟩ -- MMA_SP
  | 0x2C2 => some ⟨(fun _ => (.target, .scalar, .scalar)), [.qd], [.untyped], false, (fun _ => false)⟩ -- MMA_TRI
  | 0x2C4 => some ⟨(fun _ => (.target, .scalar, .scalar)), [.qd], [.untyped], false, (fun _ => false)⟩ -- SCLD
  | 0x2C5 => some ⟨(fun _ => (.target, .none, .none)), [.qd], [.untyped], false, (fun _ => false)⟩ -- ACCZ
  | 0x2C6 => some ⟨(fun o => (.target, .none, (if o.var.getLsbD 3 || o.var.getLsbD 2 then .scalar else .none))), [.qd], [.untyped], false, (fun _ => false)⟩ -- ACCADV
  | 0x2C8 => some ⟨(fun _ => (.target, .scalar, .scalar)), [.qd], [.untyped], false, (fun _ => false)⟩ -- EPCFG
  | 0x2CC => some ⟨(fun _ => (.scalar, .none, .none)), [], [.untyped], false, (fun _ => false)⟩ -- MSTAT
  | 0x300 => some ⟨(fun _ => (.target, .copyGroup, .scalar)), [.qd], [.untyped], false, (fun _ => false)⟩ -- CPY
  | 0x301 => some ⟨(fun _ => (.target, .copyGroup, .scalar)), [.qd], [.n8, .n16, .n32, .n64], false, (fun _ => false)⟩ -- CPYF
  | 0x302 => some ⟨(fun _ => (.target, .copyGroup, .scalar)), [.qd], [.s32, .s64, .n32, .n64], false, (fun _ => false)⟩ -- CPYG
  | 0x310 => some ⟨(fun _ => (.target, .netGroup, .scalar)), [.qd], [.untyped], false, (fun _ => false)⟩ -- NPOST
  | 0x311 => some ⟨(fun _ => (.target, .netGroup, .scalar)), [.qd], [.untyped], false, (fun _ => false)⟩ -- NUNPOST
  | 0x312 => some ⟨(fun _ => (.target, .netGroup, .scalar)), [.qd], [.untyped], false, (fun _ => false)⟩ -- NSEND
  | 0x313 => some ⟨(fun _ => (.target, .netGroup, .scalar)), [.qd], [.untyped], false, (fun _ => false)⟩ -- NSENDT
  | 0x314 => some ⟨(fun o => (.scalar, .scalar, (if o.var.getLsbD 0 then .scalar else .none))), [], [.untyped], false, (fun _ => false)⟩ -- NCNT
  | 0x315 => some ⟨(fun _ => (.none, .scalar, .scalar)), [.ib], [.untyped], true, (fun _ => false)⟩ -- WAITC
  | 0x340 => some ⟨(fun _ => (.scalar, .scalar, .none)), [], [.untyped], false, (fun _ => false)⟩ -- LMREQ
  | 0x341 => some ⟨(fun _ => (.scalar, .scalar, .none)), [], [.untyped], false, (fun _ => false)⟩ -- LMREL
  | 0x342 => some ⟨(fun _ => (.target, .evenScalar, .scalar)), [.qd], [.untyped], false, (fun _ => false)⟩ -- LMIN
  | 0x343 => some ⟨(fun _ => (.target, .evenScalar, .scalar)), [.qd], [.untyped], false, (fun _ => false)⟩ -- LMOUT
  | 0x344 => some ⟨(fun o => (.target, .evenScalar, if o.var.getLsbD 2 then .scalar else .none)), [.qd, .ib], [.untyped], false, (fun _ => false)⟩ -- LADD
  | 0x345 => some ⟨(fun o => (.target, .evenScalar, if o.var.getLsbD 2 then .scalar else .none)), [.qd, .ib], [.untyped], false, (fun _ => false)⟩ -- LSUB
  | 0x346 => some ⟨(fun o => (.target, .evenScalar, if o.var.getLsbD 2 then .scalar else .none)), [.qd, .ib], [.untyped], false, (fun _ => false)⟩ -- LMUL
  | 0x347 => some ⟨(fun o => (.target, .evenScalar, if o.var.getLsbD 2 && o.var.toNat % 4 ≠ 3 then .scalar else .none)), [.qd, .ib], [.untyped], false, (fun _ => false)⟩ -- LLOG
  | 0x348 => some ⟨(fun o => (.target, .evenScalar, if o.var.getLsbD 2 then .scalar else .none)), [.qd, .ib], [.untyped], false, (fun _ => false)⟩ -- LCMP
  | 0x349 => some ⟨(fun o => (.target, .evenScalar, if o.var.getLsbD 2 then .scalar else .none)), [.qd, .ib], [.untyped], false, (fun _ => false)⟩ -- LSEL
  | 0x34A => some ⟨(fun o => (.target, .evenScalar, if o.var.getLsbD 2 then .scalar else .none)), [.qd, .ib], [.untyped], false, (fun _ => false)⟩ -- LMM
  | 0x34B => some ⟨(fun _ => (.target, .evenScalar, .scalar)), [.qd, .ib], [.untyped], false, (fun _ => false)⟩ -- LSHF
  | 0x34C => some ⟨(fun _ => (.target, .evenScalar, .scalar)), [.qd, .ib], [.untyped], false, (fun _ => false)⟩ -- LRED
  | 0x34D => some ⟨(fun _ => (.target, .evenScalar, .scalar)), [.qd, .ib], [.untyped], false, (fun _ => false)⟩ -- LMATCH
  | 0x34E => some ⟨(fun _ => (.target, .evenScalar, .none)), [.qd], [.untyped], false, (fun _ => false)⟩ -- LCNT
  | 0x34F => some ⟨(fun _ => (.target, .scalar, .scalar)), [.qd, .ib], [.untyped], false, (fun _ => false)⟩ -- LDONE
  | 0x380 => some ⟨(fun _ => (.scalar, .scalar, .scalar)), [], [.f16, .bf16, .d8], false, (fun _ => false)⟩ -- OPINST
  | 0x381 => some ⟨(fun _ => (.scalar, .scalar, .none)), [], [.untyped], false, (fun _ => false)⟩ -- OPSEAL
  | 0x382 => some ⟨(fun _ => (.scalar, .scalar, .none)), [], [.untyped], false, (fun _ => false)⟩ -- OPUNINST
  | 0x383 => some ⟨(fun _ => (.scalar, .scalar, .scalar)), [], [.untyped], false, (fun _ => false)⟩ -- OPSTAT
  | 0x384 => some ⟨(fun _ => (.scalar, .scalar, .scalar)), [], [.untyped], false, (fun _ => false)⟩ -- OPQ
  | _ => none

/-- The L-form instructions of the opcode map and what each accepts (R72, R118, R123, R125). -/
def lSpec (op : Nat) : Option LSpec :=
  match op with
  | 0x000 => some ⟨.scalar, .scalar, false⟩ -- SADD_L
  | 0x002 => some ⟨.scalar, .scalar, false⟩ -- SMUL_L
  | 0x006 => some ⟨.scalar, .scalar, false⟩ -- SAND_L
  | 0x007 => some ⟨.scalar, .scalar, false⟩ -- SOR_L
  | 0x008 => some ⟨.scalar, .scalar, false⟩ -- SXOR_L
  | 0x010 => some ⟨.scalar, .none, false⟩ -- SMOVI
  | 0x011 => some ⟨.scalar, .none, false⟩ -- SMOVHI
  | 0x040 => some ⟨.none, .none, false⟩ -- BR
  | 0x041 => some ⟨.none, .scalar, false⟩ -- BZ
  | 0x042 => some ⟨.none, .scalar, false⟩ -- BNZ
  | 0x043 => some ⟨.scalar, .scalar, false⟩ -- BLT
  | 0x044 => some ⟨.none, .mask, false⟩ -- BANY
  | 0x045 => some ⟨.none, .mask, false⟩ -- BALL
  | 0x046 => some ⟨.none, .mask, false⟩ -- BNONE
  | 0x048 => some ⟨.scalar, .none, false⟩ -- CALL
  | 0x04A => some ⟨.scalar, .none, false⟩ -- LOOP
  | 0x1C2 => some ⟨.scalar, .scalar, true⟩ -- LDS_L
  | 0x1C3 => some ⟨.scalar, .scalar, false⟩ -- STS_L
  | _ => none

/-- The op and the fields of an F-form instruction (R53, R72). -/
def Instr.fForm (i : Instr) : Option (Nat × Ops) :=
  match i with
  | .sadd o => some (0x000, o)
  | .ssub o => some (0x001, o)
  | .smul o => some (0x002, o)
  | .smulh o => some (0x003, o)
  | .sdiv o => some (0x004, o)
  | .srem o => some (0x005, o)
  | .sand o => some (0x006, o)
  | .sor o => some (0x007, o)
  | .sxor o => some (0x008, o)
  | .sshl o => some (0x009, o)
  | .sshr o => some (0x00A, o)
  | .ssar o => some (0x00B, o)
  | .smin o => some (0x00C, o)
  | .smax o => some (0x00D, o)
  | .scmp o => some (0x00E, o)
  | .slea o => some (0x00F, o)
  | .jmp o => some (0x047, o)
  | .ret o => some (0x049, o)
  | .exit o => some (0x04B, o)
  | .srd o => some (0x080, o)
  | .swr o => some (0x081, o)
  | .nop o => some (0x088, o)
  | .trap o => some (0x089, o)
  | .uret o => some (0x08A, o)
  | .ecall o => some (0x08B, o)
  | .halt o => some (0x08C, o)
  | .yield o => some (0x08D, o)
  | .evsel o => some (0x08E, o)
  | .evrd o => some (0x08F, o)
  | .ctxsave o => some (0x090, o)
  | .ctxrst o => some (0x091, o)
  | .resume o => some (0x092, o)
  | .tlbinv o => some (0x093, o)
  | .vadd o => some (0x0C0, o)
  | .vsub o => some (0x0C1, o)
  | .vmul o => some (0x0C2, o)
  | .vmulh o => some (0x0C3, o)
  | .vmad o => some (0x0C4, o)
  | .vadds o => some (0x0C5, o)
  | .vsubs o => some (0x0C6, o)
  | .vand o => some (0x0C7, o)
  | .vor o => some (0x0C8, o)
  | .vxor o => some (0x0C9, o)
  | .vshl o => some (0x0CA, o)
  | .vshr o => some (0x0CB, o)
  | .vsar o => some (0x0CC, o)
  | .vmin o => some (0x0CD, o)
  | .vmax o => some (0x0CE, o)
  | .vcmp o => some (0x0CF, o)
  | .vsel o => some (0x0D0, o)
  | .vmov o => some (0x0D1, o)
  | .fadd o => some (0x100, o)
  | .fsub o => some (0x101, o)
  | .fmul o => some (0x102, o)
  | .ffma o => some (0x103, o)
  | .fmin o => some (0x104, o)
  | .fmax o => some (0x105, o)
  | .fcmp o => some (0x106, o)
  | .frcp o => some (0x110, o)
  | .fsqrt o => some (0x111, o)
  | .frsq o => some (0x112, o)
  | .fexp2 o => some (0x113, o)
  | .flog2 o => some (0x114, o)
  | .fsin o => some (0x115, o)
  | .fcos o => some (0x116, o)
  | .ftanh o => some (0x117, o)
  | .cvt o => some (0x140, o)
  | .cvts o => some (0x141, o)
  | .d8pack o => some (0x142, o)
  | .d8unp o => some (0x143, o)
  | .s10mk o => some (0x144, o)
  | .s10ap o => some (0x145, o)
  | .xrot o => some (0x180, o)
  | .xbfly o => some (0x181, o)
  | .xshfl o => some (0x182, o)
  | .xbcst o => some (0x183, o)
  | .xred o => some (0x184, o)
  | .xscan o => some (0x185, o)
  | .xfind o => some (0x186, o)
  | .kand o => some (0x1A0, o)
  | .kor o => some (0x1A1, o)
  | .kxor o => some (0x1A2, o)
  | .kandn o => some (0x1A3, o)
  | .kpop o => some (0x1A4, o)
  | .kfirst o => some (0x1A5, o)
  | .emget o => some (0x1A6, o)
  | .emset o => some (0x1A7, o)
  | .emand o => some (0x1A8, o)
  | .ld o => some (0x1C0, o)
  | .st o => some (0x1C1, o)
  | .lds o => some (0x1C2, o)
  | .sts o => some (0x1C3, o)
  | .ldl o => some (0x1C4, o)
  | .stl o => some (0x1C5, o)
  | .pf o => some (0x1C8, o)
  | .disc o => some (0x1C9, o)
  | .flush o => some (0x1CA, o)
  | .inv o => some (0x1CB, o)
  | .atom o => some (0x200, o)
  | .red o => some (0x201, o)
  | .satom o => some (0x202, o)
  | .fence o => some (0x208, o)
  | .waita o => some (0x209, o)
  | .trywait o => some (0x20A, o)
  | .barinit o => some (0x240, o)
  | .bararr o => some (0x241, o)
  | .bartx o => some (0x242, o)
  | .barwait o => some (0x243, o)
  | .barsync o => some (0x244, o)
  | .bartrywait o => some (0x245, o)
  | .cinit o => some (0x248, o)
  | .pushc o => some (0x249, o)
  | .popc o => some (0x24A, o)
  | .trypopc o => some (0x24B, o)
  | .fetchw o => some (0x250, o)
  | .spawn o => some (0x251, o)
  | .join o => some (0x252, o)
  | .qbind o => some (0x280, o)
  | .qunbind o => some (0x281, o)
  | .qinfo o => some (0x282, o)
  | .mma o => some (0x2C0, o)
  | .mmaSp o => some (0x2C1, o)
  | .mmaTri o => some (0x2C2, o)
  | .scld o => some (0x2C4, o)
  | .accz o => some (0x2C5, o)
  | .accadv o => some (0x2C6, o)
  | .epcfg o => some (0x2C8, o)
  | .mstat o => some (0x2CC, o)
  | .cpy o => some (0x300, o)
  | .cpyf o => some (0x301, o)
  | .cpyg o => some (0x302, o)
  | .npost o => some (0x310, o)
  | .nunpost o => some (0x311, o)
  | .nsend o => some (0x312, o)
  | .nsendt o => some (0x313, o)
  | .ncnt o => some (0x314, o)
  | .waitc o => some (0x315, o)
  | .lmreq o => some (0x340, o)
  | .lmrel o => some (0x341, o)
  | .lmin o => some (0x342, o)
  | .lmout o => some (0x343, o)
  | .ladd o => some (0x344, o)
  | .lsub o => some (0x345, o)
  | .lmul o => some (0x346, o)
  | .llog o => some (0x347, o)
  | .lcmp o => some (0x348, o)
  | .lsel o => some (0x349, o)
  | .lmm o => some (0x34A, o)
  | .lshf o => some (0x34B, o)
  | .lred o => some (0x34C, o)
  | .lmatch o => some (0x34D, o)
  | .lcnt o => some (0x34E, o)
  | .ldone o => some (0x34F, o)
  | .opinst o => some (0x380, o)
  | .opseal o => some (0x381, o)
  | .opuninst o => some (0x382, o)
  | .opstat o => some (0x383, o)
  | .opq o => some (0x384, o)
  | _ => Option.none

/-- The op and the fields of an L-form instruction (R62, R72). -/
def Instr.lForm (i : Instr) : Option (Nat × LOps) :=
  match i with
  | .saddL o => some (0x000, o)
  | .smulL o => some (0x002, o)
  | .sandL o => some (0x006, o)
  | .sorL o => some (0x007, o)
  | .sxorL o => some (0x008, o)
  | .smovi o => some (0x010, o)
  | .smovhi o => some (0x011, o)
  | .br o => some (0x040, o)
  | .bz o => some (0x041, o)
  | .bnz o => some (0x042, o)
  | .blt o => some (0x043, o)
  | .bany o => some (0x044, o)
  | .ball o => some (0x045, o)
  | .bnone o => some (0x046, o)
  | .call o => some (0x048, o)
  | .loop o => some (0x04A, o)
  | .ldsL o => some (0x1C2, o)
  | .stsL o => some (0x1C3, o)
  | _ => Option.none

/-- The two slots of a dual instruction, slot 0 first (R63, R64). -/
def Instr.dForm (i : Instr) : Option (Short × Short) :=
  match i with
  | .nopSlot p => some (.nop, p)
  | .vaddSlot x p => some (.op .vadd x, p)
  | .vsubSlot x p => some (.op .vsub x, p)
  | .vmulSlot x p => some (.op .vmul x, p)
  | .vminSlot x p => some (.op .vmin x, p)
  | .vmaxSlot x p => some (.op .vmax x, p)
  | .vaddsSlot x p => some (.op .vadds x, p)
  | .vsubsSlot x p => some (.op .vsubs x, p)
  | .vandSlot x p => some (.op .vand x, p)
  | .vorSlot x p => some (.op .vor x, p)
  | .vxorSlot x p => some (.op .vxor x, p)
  | .vshlSlot x p => some (.op .vshl x, p)
  | .vshrSlot x p => some (.op .vshr x, p)
  | .vsarSlot x p => some (.op .vsar x, p)
  | .vmovSlot x p => some (.op .vmov x, p)
  | .faddSlot x p => some (.op .fadd x, p)
  | .fsubSlot x p => some (.op .fsub x, p)
  | .fmulSlot x p => some (.op .fmul x, p)
  | .fminSlot x p => some (.op .fmin x, p)
  | .fmaxSlot x p => some (.op .fmax x, p)
  | .saddSlot x p => some (.op .sadd x, p)
  | .ssubSlot x p => some (.op .ssub x, p)
  | .sandSlot x p => some (.op .sand x, p)
  | .sorSlot x p => some (.op .sor x, p)
  | .sxorSlot x p => some (.op .sxor x, p)
  | .sshlSlot x p => some (.op .sshl x, p)
  | .sshrSlot x p => some (.op .sshr x, p)
  | .ssarSlot x p => some (.op .ssar x, p)
  | .sminSlot x p => some (.op .smin x, p)
  | .smaxSlot x p => some (.op .smax x, p)
  | _ => Option.none

/-- The instruction of an F word's op and fields; none where R72 lists no F form (R72). -/
def Instr.ofF (op : Nat) (o : Ops) : Option Instr :=
  match op with
  | 0x000 => some (.sadd o)
  | 0x001 => some (.ssub o)
  | 0x002 => some (.smul o)
  | 0x003 => some (.smulh o)
  | 0x004 => some (.sdiv o)
  | 0x005 => some (.srem o)
  | 0x006 => some (.sand o)
  | 0x007 => some (.sor o)
  | 0x008 => some (.sxor o)
  | 0x009 => some (.sshl o)
  | 0x00A => some (.sshr o)
  | 0x00B => some (.ssar o)
  | 0x00C => some (.smin o)
  | 0x00D => some (.smax o)
  | 0x00E => some (.scmp o)
  | 0x00F => some (.slea o)
  | 0x047 => some (.jmp o)
  | 0x049 => some (.ret o)
  | 0x04B => some (.exit o)
  | 0x080 => some (.srd o)
  | 0x081 => some (.swr o)
  | 0x088 => some (.nop o)
  | 0x089 => some (.trap o)
  | 0x08A => some (.uret o)
  | 0x08B => some (.ecall o)
  | 0x08C => some (.halt o)
  | 0x08D => some (.yield o)
  | 0x08E => some (.evsel o)
  | 0x08F => some (.evrd o)
  | 0x090 => some (.ctxsave o)
  | 0x091 => some (.ctxrst o)
  | 0x092 => some (.resume o)
  | 0x093 => some (.tlbinv o)
  | 0x0C0 => some (.vadd o)
  | 0x0C1 => some (.vsub o)
  | 0x0C2 => some (.vmul o)
  | 0x0C3 => some (.vmulh o)
  | 0x0C4 => some (.vmad o)
  | 0x0C5 => some (.vadds o)
  | 0x0C6 => some (.vsubs o)
  | 0x0C7 => some (.vand o)
  | 0x0C8 => some (.vor o)
  | 0x0C9 => some (.vxor o)
  | 0x0CA => some (.vshl o)
  | 0x0CB => some (.vshr o)
  | 0x0CC => some (.vsar o)
  | 0x0CD => some (.vmin o)
  | 0x0CE => some (.vmax o)
  | 0x0CF => some (.vcmp o)
  | 0x0D0 => some (.vsel o)
  | 0x0D1 => some (.vmov o)
  | 0x100 => some (.fadd o)
  | 0x101 => some (.fsub o)
  | 0x102 => some (.fmul o)
  | 0x103 => some (.ffma o)
  | 0x104 => some (.fmin o)
  | 0x105 => some (.fmax o)
  | 0x106 => some (.fcmp o)
  | 0x110 => some (.frcp o)
  | 0x111 => some (.fsqrt o)
  | 0x112 => some (.frsq o)
  | 0x113 => some (.fexp2 o)
  | 0x114 => some (.flog2 o)
  | 0x115 => some (.fsin o)
  | 0x116 => some (.fcos o)
  | 0x117 => some (.ftanh o)
  | 0x140 => some (.cvt o)
  | 0x141 => some (.cvts o)
  | 0x142 => some (.d8pack o)
  | 0x143 => some (.d8unp o)
  | 0x144 => some (.s10mk o)
  | 0x145 => some (.s10ap o)
  | 0x180 => some (.xrot o)
  | 0x181 => some (.xbfly o)
  | 0x182 => some (.xshfl o)
  | 0x183 => some (.xbcst o)
  | 0x184 => some (.xred o)
  | 0x185 => some (.xscan o)
  | 0x186 => some (.xfind o)
  | 0x1A0 => some (.kand o)
  | 0x1A1 => some (.kor o)
  | 0x1A2 => some (.kxor o)
  | 0x1A3 => some (.kandn o)
  | 0x1A4 => some (.kpop o)
  | 0x1A5 => some (.kfirst o)
  | 0x1A6 => some (.emget o)
  | 0x1A7 => some (.emset o)
  | 0x1A8 => some (.emand o)
  | 0x1C0 => some (.ld o)
  | 0x1C1 => some (.st o)
  | 0x1C2 => some (.lds o)
  | 0x1C3 => some (.sts o)
  | 0x1C4 => some (.ldl o)
  | 0x1C5 => some (.stl o)
  | 0x1C8 => some (.pf o)
  | 0x1C9 => some (.disc o)
  | 0x1CA => some (.flush o)
  | 0x1CB => some (.inv o)
  | 0x200 => some (.atom o)
  | 0x201 => some (.red o)
  | 0x202 => some (.satom o)
  | 0x208 => some (.fence o)
  | 0x209 => some (.waita o)
  | 0x20A => some (.trywait o)
  | 0x240 => some (.barinit o)
  | 0x241 => some (.bararr o)
  | 0x242 => some (.bartx o)
  | 0x243 => some (.barwait o)
  | 0x244 => some (.barsync o)
  | 0x245 => some (.bartrywait o)
  | 0x248 => some (.cinit o)
  | 0x249 => some (.pushc o)
  | 0x24A => some (.popc o)
  | 0x24B => some (.trypopc o)
  | 0x250 => some (.fetchw o)
  | 0x251 => some (.spawn o)
  | 0x252 => some (.join o)
  | 0x280 => some (.qbind o)
  | 0x281 => some (.qunbind o)
  | 0x282 => some (.qinfo o)
  | 0x2C0 => some (.mma o)
  | 0x2C1 => some (.mmaSp o)
  | 0x2C2 => some (.mmaTri o)
  | 0x2C4 => some (.scld o)
  | 0x2C5 => some (.accz o)
  | 0x2C6 => some (.accadv o)
  | 0x2C8 => some (.epcfg o)
  | 0x2CC => some (.mstat o)
  | 0x300 => some (.cpy o)
  | 0x301 => some (.cpyf o)
  | 0x302 => some (.cpyg o)
  | 0x310 => some (.npost o)
  | 0x311 => some (.nunpost o)
  | 0x312 => some (.nsend o)
  | 0x313 => some (.nsendt o)
  | 0x314 => some (.ncnt o)
  | 0x315 => some (.waitc o)
  | 0x340 => some (.lmreq o)
  | 0x341 => some (.lmrel o)
  | 0x342 => some (.lmin o)
  | 0x343 => some (.lmout o)
  | 0x344 => some (.ladd o)
  | 0x345 => some (.lsub o)
  | 0x346 => some (.lmul o)
  | 0x347 => some (.llog o)
  | 0x348 => some (.lcmp o)
  | 0x349 => some (.lsel o)
  | 0x34A => some (.lmm o)
  | 0x34B => some (.lshf o)
  | 0x34C => some (.lred o)
  | 0x34D => some (.lmatch o)
  | 0x34E => some (.lcnt o)
  | 0x34F => some (.ldone o)
  | 0x380 => some (.opinst o)
  | 0x381 => some (.opseal o)
  | 0x382 => some (.opuninst o)
  | 0x383 => some (.opstat o)
  | 0x384 => some (.opq o)
  | _ => Option.none

/-- The instruction of an L word's op and fields; none where R72 lists no L form (R72). -/
def Instr.ofL (op : Nat) (o : LOps) : Option Instr :=
  match op with
  | 0x000 => some (.saddL o)
  | 0x002 => some (.smulL o)
  | 0x006 => some (.sandL o)
  | 0x007 => some (.sorL o)
  | 0x008 => some (.sxorL o)
  | 0x010 => some (.smovi o)
  | 0x011 => some (.smovhi o)
  | 0x040 => some (.br o)
  | 0x041 => some (.bz o)
  | 0x042 => some (.bnz o)
  | 0x043 => some (.blt o)
  | 0x044 => some (.bany o)
  | 0x045 => some (.ball o)
  | 0x046 => some (.bnone o)
  | 0x048 => some (.call o)
  | 0x04A => some (.loop o)
  | 0x1C2 => some (.ldsL o)
  | 0x1C3 => some (.stsL o)
  | _ => Option.none

/-- The instruction of a D word's two slots (R63, R64). -/
def Instr.ofD (s0 s1 : Short) : Instr :=
  match s0 with
  | .nop => .nopSlot s1
  | .op sop x =>
    match sop with
    | .vadd => .vaddSlot x s1
    | .vsub => .vsubSlot x s1
    | .vmul => .vmulSlot x s1
    | .vmin => .vminSlot x s1
    | .vmax => .vmaxSlot x s1
    | .vadds => .vaddsSlot x s1
    | .vsubs => .vsubsSlot x s1
    | .vand => .vandSlot x s1
    | .vor => .vorSlot x s1
    | .vxor => .vxorSlot x s1
    | .vshl => .vshlSlot x s1
    | .vshr => .vshrSlot x s1
    | .vsar => .vsarSlot x s1
    | .vmov => .vmovSlot x s1
    | .fadd => .faddSlot x s1
    | .fsub => .fsubSlot x s1
    | .fmul => .fmulSlot x s1
    | .fmin => .fminSlot x s1
    | .fmax => .fmaxSlot x s1
    | .sadd => .saddSlot x s1
    | .ssub => .ssubSlot x s1
    | .sand => .sandSlot x s1
    | .sor => .sorSlot x s1
    | .sxor => .sxorSlot x s1
    | .sshl => .sshlSlot x s1
    | .sshr => .sshrSlot x s1
    | .ssar => .ssarSlot x s1
    | .smin => .sminSlot x s1
    | .smax => .smaxSlot x s1

/-- Whether the function is privileged (R73). -/
def privileged (op : Nat) : Bool := 0x90 ≤ op && op ≤ 0x93

/-- Whether a queue register of the issuing team is bound to an engine output (R67). -/
def Env.isLong (env : Env) (n : BitVec 8) : Bool := n.toNat < 16 && env.longQ.getLsbD n.toNat

/-- Whether the d field is refused in step 3 of R74: its modifier bit is not accepted, or its kind is none and it is not zero. -/
def Dst.refused (mods : List Mod) (k : Kind) (d : Dst) : Bool :=
  match d with
  | .queue _ => !mods.contains .qd
  | .reg n => k = .target || (k = .none && n ≠ 0)

/-- Whether the a or b field is refused in step 3 of R74; `imm`, `que` and `sca` are its modifier bits, if it has them. -/
def Src.refused (mods : List Mod) (imm que : Mod) (sca : Option Mod) (k : Kind) (x : Src) : Bool :=
  match x with
  | .queue _ => !mods.contains que
  | .imm _ => !mods.contains imm || k = .none
  | .scalar _ => match sca with | some m => !mods.contains m | none => true
  | .reg n => k = .none && n ≠ 0

/-- Step 3 of R74 for an F word: modifier bits, type code, mode, masking, fields of kind none and lookahead (R55, R56, R59, R60, R67);
SRD is masked only when it reads LANE (R132). -/
def FSpec.refused (sp : FSpec) (env : Env) (op : Nat) (o : Ops) : Bool :=
  let k := sp.kinds o
  o.d.refused sp.mods k.1 || o.a.refused sp.mods .ia .qa none k.2.1 || o.b.refused sp.mods .ib .qb (some .sb) k.2.2
    || !sp.types.contains o.ty
    || (o.mode ≠ 0 && !sp.modeAny)
    || (o.mask.isSome && (!sp.mods.contains .ke || (op = 0x80 && o.a ≠ .reg 0)))
    || (o.la ≠ 0 && !(sp.long o
        || (match o.a with | .queue n => env.isLong n | _ => false)
        || (match o.b with | .queue n => env.isLong n | _ => false)))

/-- Step 5 of R74 for an F word: a specifier outside its kind (R55). -/
def FSpec.outOfRange (sp : FSpec) (env : Env) (o : Ops) : Bool :=
  let k := sp.kinds o
  !(match o.d with | .reg n => k.1.accepts env n | .queue n => Kind.queueReg.accepts env n)
    || !(match o.a with | .reg n => k.2.1.accepts env n | .queue n => Kind.queueReg.accepts env n | _ => true)
    || !(match o.b with
      | .reg n => k.2.2.accepts env n
      | .scalar n => Kind.scalar.accepts env n
      | .queue n => Kind.queueReg.accepts env n
      | .imm _ => true)

/-- Whether the number names a special register that SRD reads (R104). -/
def readableSpecial (n : BitVec 8) : Bool := n.toNat ≤ 0x0D || (0x10 ≤ n.toNat && n.toNat ≤ 0x15)

/-- Whether the number names a special register that SWR writes (R104, R133). -/
def writableSpecial (n : BitVec 8) : Bool := 0x10 ≤ n.toNat && n.toNat ≤ 0x15

/-- The number that a register field holds. -/
def Src.num (x : Src) : BitVec 8 :=
  match x with
  | .reg n => n | .imm n => n | .scalar n => n | .queue n => n

/-- The number that a destination field holds. -/
def Dst.num (x : Dst) : BitVec 8 :=
  match x with
  | .reg n => n | .queue n => n

/-- Whether b is an immediate. -/
def Src.isImm (x : Src) : Bool := match x with | .imm _ => true | _ => false

/-- The variant of a vector memory access: [21:20] zero, and no scale with a displacement (R181, R184). -/
def scaleRefused (o : Ops) : Bool := o.var.toNat % 4 ≠ 0 || (o.b.isImm && o.var.toNat / 4 ≠ 0)

/-- The register pair of a 64-bit lane access breaks R183. -/
def pairRefused (env : Env) (o : Ops) : Bool :=
  o.ty.size = 8 && (o.d.num.toNat % 2 ≠ 0 || env.vregs ≤ o.d.num.toNat + 1)

/-- The registers of a vector atomic break R183 or R192: `n` 32-bit registers from an aligned d. -/
def groupRefused (env : Env) (o : Ops) (n : Nat) : Bool :=
  o.d.num.toNat % n ≠ 0 || env.vregs ≤ o.d.num.toNat + (n - 1)

/-- The registers of ATOM and RED: one or two per operand, twice that for .cas (R183, R192). -/
def atomRegs (o : Ops) : Nat := (if o.ty.size = 8 then 2 else 1) * (if o.var.toNat % 8 = 7 then 2 else 1)

/-- The types that a conversion converts (R146). -/
def convertible : List ElemType := [.s8, .s16, .s32, .n8, .n16, .n32, .f16, .bf16, .f32, .d8]

/-- A conversion is refused in step 3 of R74: its source type code, or a mode where it does not round (R59, R60, R146). -/
def cvtRefused (o : Ops) : Bool :=
  match ElemType.ofCode o.var with
  | none => true
  | some t => !convertible.contains t || t = o.ty || (o.mode ≠ 0 && (o.ty = .d8 || (t.isInt && o.ty.isInt)))

/-- The type of QBIND is refused for its endpoint code: streams take a type and the other codes take none (R59, R113). -/
def qbindRefused (o : Ops) : Bool :=
  if o.var = 0 || 8 ≤ o.var.toNat then false else if o.var.toNat ≤ 2 then o.ty = .untyped else o.ty ≠ .untyped

/-- A type or mode is refused in step 3 of R74 by the other fields of its word: a conversion (R146), a reduction or scan by a bitwise operation on
a floating-point type (R157), a QBIND (R113), the output format code of an OPINST (R59, R232). -/
def codeRefused (op : Nat) (o : Ops) : Bool :=
  match op with
  | 0x140 => cvtRefused o
  | 0x141 => cvtRefused o
  | 0x184 => 3 ≤ o.var.toNat && o.var.toNat < 6 && !o.ty.isInt
  | 0x185 => 3 ≤ o.var.toNat && o.var.toNat < 6 && !o.ty.isInt
  | 0x280 => qbindRefused o
  | 0x380 => o.var ≠ 9 && o.var ≠ 10 && o.var ≠ 11
  | _ => false

/-- Whether the op is an engine command, whose variant is checked where it issues (R247, R282, R286, R298). -/
def isCommand (op : Nat) : Bool :=
  (0x2C0 ≤ op && op ≤ 0x2C8) || (0x300 ≤ op && op ≤ 0x313) || (0x342 ≤ op && op ≤ 0x34F)

/-- Whether the op is a blocking wait, whose wait tag is checked where it issues, before its variant (R47, R60, R74). -/
def isTagged (op : Nat) : Bool := op = 0x209 || op = 0x243 || op = 0x244 || op = 0x249 || op = 0x24A || op = 0x315

/-- What an instruction refuses of itself once R74 has passed, other than a wait or an engine command, which are checked
where they issue (R47, R200, R247, R282, R298): its variant, and its register groups. The order of several refusals is that of the
instruction's own rule. -/
def ownCheck (env : Env) (op : Nat) (o : Ops) : Option Cause :=
  let bad (b : Bool) : Option Cause := if b then some .illegalInstruction else none
  let v := o.var.toNat
  match op with
  | 0x00E => bad (6 ≤ v)
  | 0x00F => none
  | 0x080 => if v ≠ 0 then some .illegalInstruction else if readableSpecial o.a.num then none else some .illegalRegister
  | 0x081 =>
    if v ≠ 0 then some .illegalInstruction
    else if writableSpecial o.d.num then none
    else if readableSpecial o.d.num then some .illegalInstruction
    else some .illegalRegister
  | 0x08E => bad (8 ≤ v)
  | 0x08F => bad (8 ≤ v)
  | 0x090 => bad (2 ≤ v)
  | 0x092 => bad (2 ≤ v)
  | 0x093 => bad (3 ≤ v)
  | 0x0CF => bad (6 ≤ v)
  | 0x0D0 => bad (8 ≤ v)
  | 0x106 => bad (7 ≤ v)
  | 0x140 => none
  | 0x141 => none
  | 0x142 => bad (4 ≤ v)
  | 0x143 => bad (4 ≤ v)
  | 0x144 => bad (3 ≤ v)
  | 0x145 => bad (2 ≤ v)
  | 0x180 => bad (11 ≤ v || env.tw < 2 ^ v)
  | 0x184 => bad (6 ≤ v)
  | 0x185 => bad (6 ≤ v)
  | 0x1C0 => if scaleRefused o then some .illegalInstruction else if pairRefused env o then some .illegalRegister else none
  | 0x1C1 => if scaleRefused o then some .illegalInstruction else if pairRefused env o then some .illegalRegister else none
  | 0x1C2 => bad (scaleRefused o)
  | 0x1C3 => bad (scaleRefused o)
  | 0x1C4 => if scaleRefused o then some .illegalInstruction else if pairRefused env o then some .illegalRegister else none
  | 0x1C5 => if scaleRefused o then some .illegalInstruction else if pairRefused env o then some .illegalRegister else none
  | 0x1C8 => bad ((v / 2) % 2 ≠ 0 || (o.b.isImm && v / 4 ≠ 0))
  | 0x1C9 => bad (scaleRefused o)
  | 0x1CA => bad ((v / 2) % 2 ≠ 0 || (o.b.isImm && v / 4 ≠ 0))
  | 0x1CB => bad (scaleRefused o)
  | 0x200 =>
    if 8 ≤ v && o.b.isImm then some .illegalInstruction
    else if groupRefused env o (atomRegs o) then some .illegalRegister else none
  | 0x201 =>
    if (8 ≤ v && o.b.isImm) || v % 8 = 7 then some .illegalInstruction
    else if groupRefused env o (atomRegs o) then some .illegalRegister else none
  | 0x202 =>
    if 8 ≤ v && o.b.isImm then some .illegalInstruction
    else if v % 8 = 7 && o.d.num.toNat % 2 ≠ 0 then some .illegalRegister else none
  | 0x208 => bad (5 ≤ v)
  | 0x20A => bad (v % 4 = 3)
  | 0x242 => bad (2 ≤ v)
  | 0x245 => bad (v % 4 ≠ 0)
  | 0x280 => bad (v = 0 || 8 ≤ v)
  | 0x314 => bad (2 ≤ v)
  | 0x380 => if o.b.num = 0 || o.b.num.toNat % 2 ≠ 0 then some .illegalRegister else none
  | _ => if isCommand op || isTagged op then none else bad (v ≠ 0)

/-- The checks of an F word after its op is known: steps 3 and 5 of R74, then the instruction's own. -/
def FSpec.check (sp : FSpec) (env : Env) (op : Nat) (o : Ops) : Option Cause :=
  if sp.refused env op o || codeRefused op o then some .illegalInstruction
  else if sp.outOfRange env o then some .illegalRegister
  else ownCheck env op o

/-- The checks of an L word after its op is known (R62, R67, R74). -/
def LSpec.check (sp : LSpec) (env : Env) (o : LOps) : Option Cause :=
  if (sp.kindD = .none && o.d ≠ 0) || (sp.kindA = .none && o.a ≠ 0) || (o.la ≠ 0 && !sp.long) then some .illegalInstruction
  else if !sp.kindD.accepts env o.d || !sp.kindA.accepts env o.a then some .illegalRegister
  else none

/-- The group of a short operation: whether it is scalar, and whether it is floating point (R66). -/
def Sop.isScalar (s : Sop) : Bool :=
  s = .sadd || s = .ssub || s = .sand || s = .sor || s = .sxor || s = .sshl || s = .sshr || s = .ssar || s = .smin || s = .smax

/-- Whether a short operation is floating point (R66). -/
def Sop.isFloat (s : Sop) : Bool := s = .fadd || s = .fsub || s = .fmul || s = .fmin || s = .fmax

/-- A slot is refused in step 3 of R74 (R66): its dt, or a mask or sb in a scalar operation. -/
def Slot.refused (s : Sop) (x : Slot) : Bool :=
  (if s.isFloat then x.dt ≠ 2 && x.dt ≠ 3 else x.dt ≠ 0 && x.dt ≠ 1)
    || (s.isScalar && (x.mask.isSome || (match x.b with | .scalar _ => true | _ => false)))

/-- A vector register that a slot names lies outside its banks: 0 and 1 for slot 0, 2 and 3 for slot 1 (R65). -/
def Slot.wrongBank (high : Bool) (s : Sop) (x : Slot) : Bool :=
  let bad (n : BitVec 8) : Bool := decide (2 ≤ n.toNat % 4) != high
  !s.isScalar && (bad x.d || (match x.b with | .reg n => bad n | _ => false))

/-- A specifier of a slot lies outside its kind (R55, R63). -/
def Slot.outOfRange (env : Env) (s : Sop) (x : Slot) : Bool :=
  let k : Kind := if s.isScalar then .scalar else .vector
  !k.accepts env x.d || (match x.b with
    | .reg n => !k.accepts env n
    | .scalar n => !Kind.scalar.accepts env n
    | .imm _ => false)

/-- The checks of a D word: step 3, step 4 and step 5 of R74 (R65, R66). Writing s0 twice writes nothing and is still the same register. -/
def dualCheck (env : Env) (s0 s1 : Short) : Option Cause :=
  let on (s : Short) (f : Sop → Slot → Bool) : Bool := match s with | .nop => false | .op sop x => f sop x
  let same : Bool := match s0, s1 with
    | .op p x, .op q y => p.isScalar = q.isScalar && x.d = y.d
    | _, _ => false
  if on s0 Slot.refused || on s1 Slot.refused then some .illegalInstruction
  else if on s0 (Slot.wrongBank false) || on s1 (Slot.wrongBank true) || same then some .illegalPair
  else if on s0 (Slot.outOfRange env) || on s1 (Slot.outOfRange env) then some .illegalRegister
  else none

end Sys2Proof
end

