-- ==== Sys2Proof/WellFormed.lean ====
section
/-! DEFINITION. When an instruction is one that some word of the issuing team encodes: its fields pass the checks of R74 and its own
refusals. A step of another agent has no word and no condition on its fields. -/
namespace Sys2Proof

/-- An F-form instruction is well-formed for a team: its op is not refused for privilege and its fields pass every check (R73, R74). -/
def wellFormedF (env : Env) (op : Nat) (o : Ops) : Bool :=
  match fSpec op with
  | none => false
  | some sp => (!privileged op || env.priv) && sp.check env op o = none

/-- An L-form instruction is well-formed for a team (R62, R74). -/
def wellFormedL (env : Env) (op : Nat) (o : LOps) : Bool :=
  match lSpec op with
  | none => false
  | some sp => sp.check env o = none

/-- A dual instruction is well-formed for a team (R65, R66, R74). -/
def wellFormedD (env : Env) (s0 s1 : Short) : Bool := dualCheck env s0 s1 = none

/-- An instruction is well-formed for a team. -/
def Instr.wellFormed (env : Env) (i : Instr) : Bool :=
  match i.fForm with
  | some (op, o) => wellFormedF env op o
  | none =>
    match i.lForm with
    | some (op, o) => wellFormedL env op o
    | none =>
      match i.dForm with
      | some (s0, s1) => wellFormedD env s0 s1
      | none => true

end Sys2Proof
end

