-- ==== Sys2Proof/Decode.lean ====
section
/-! DEFINITION. The decoder of Tlaust words, with the checks of R74 in their order, and the encoder (R52 to R66, R72 to R74). -/
namespace Sys2Proof

/-! ### The F format -/

/-- The fields of an F word (R54). -/
structure FWord where
  op : BitVec 10
  la : BitVec 4
  d : BitVec 8
  a : BitVec 8
  b : BitVec 8
  var : BitVec 4
  ty : BitVec 4
  qd : BitVec 1
  qa : BitVec 1
  qb : BitVec 1
  sb : BitVec 1
  ia : BitVec 1
  ib : BitVec 1
  mode : BitVec 2
  ke : BitVec 1
  ks : BitVec 3
  zero : BitVec 4
  deriving DecidableEq, Repr

/-- The fields of a word read as an F word (R54). -/
def FWord.unpack (w : DWord) : FWord where
  op := w.extractLsb' 52 10
  la := w.extractLsb' 48 4
  d := w.extractLsb' 40 8
  a := w.extractLsb' 32 8
  b := w.extractLsb' 24 8
  var := w.extractLsb' 20 4
  ty := w.extractLsb' 16 4
  qd := w.extractLsb' 15 1
  qa := w.extractLsb' 14 1
  qb := w.extractLsb' 13 1
  sb := w.extractLsb' 12 1
  ia := w.extractLsb' 11 1
  ib := w.extractLsb' 10 1
  mode := w.extractLsb' 8 2
  ke := w.extractLsb' 7 1
  ks := w.extractLsb' 4 3
  zero := w.extractLsb' 0 4

/-- Fields joined into a number, the least significant first, each a pair of a width and a value. -/
def joinFields (l : List (Nat × Nat)) : Nat :=
  match l with
  | [] => 0
  | (n, v) :: r => v % 2 ^ n + 2 ^ n * joinFields r

/-- The F word of fields (R54). -/
def FWord.pack (f : FWord) : DWord :=
  BitVec.ofNat 64 (joinFields [(4, f.zero.toNat), (3, f.ks.toNat), (1, f.ke.toNat), (2, f.mode.toNat), (1, f.ib.toNat),
    (1, f.ia.toNat), (1, f.sb.toNat), (1, f.qb.toNat), (1, f.qa.toNat), (1, f.qd.toNat), (4, f.ty.toNat), (4, f.var.toNat),
    (8, f.b.toNat), (8, f.a.toNat), (8, f.d.toNat), (4, f.la.toNat), (10, f.op.toNat), (2, 0)])

/-- The operands of an F word; none where the zero field, a modifier combination of R56, ks without ke or the type code is refused. -/
def FWord.ops (f : FWord) : Option Ops :=
  if f.zero ≠ 0 ∨ (f.ia = 1 ∧ f.qa = 1) ∨ (f.ib = 1 ∧ (f.qb = 1 ∨ f.sb = 1)) ∨ (f.sb = 1 ∧ f.qb = 1) ∨ (f.ke = 0 ∧ f.ks ≠ 0) then
    none
  else
    match ElemType.ofCode f.ty with
    | none => none
    | some ty => some {
        d := if f.qd = 1 then .queue f.d else .reg f.d
        a := if f.ia = 1 then .imm f.a else if f.qa = 1 then .queue f.a else .reg f.a
        b := if f.ib = 1 then .imm f.b else if f.qb = 1 then .queue f.b else if f.sb = 1 then .scalar f.b else .reg f.b
        var := f.var
        ty := ty
        mode := f.mode
        mask := if f.ke = 1 then some f.ks else none
        la := f.la }

/-- The F word fields of an op and its operands (R54). -/
def FWord.ofOps (op : Nat) (o : Ops) : FWord where
  op := BitVec.ofNat 10 op
  la := o.la
  d := o.d.num
  a := o.a.num
  b := o.b.num
  var := o.var
  ty := o.ty.code
  qd := match o.d with | .queue _ => 1 | _ => 0
  qa := match o.a with | .queue _ => 1 | _ => 0
  qb := match o.b with | .queue _ => 1 | _ => 0
  sb := match o.b with | .scalar _ => 1 | _ => 0
  ia := match o.a with | .imm _ => 1 | _ => 0
  ib := match o.b with | .imm _ => 1 | _ => 0
  mode := o.mode
  ke := match o.mask with | some _ => 1 | none => 0
  ks := match o.mask with | some k => k | none => 0
  zero := 0

/-- The instruction of an F word, or the cause of R74. -/
def decodeF (env : Env) (w : DWord) : Except Cause Instr :=
  let f := FWord.unpack w
  let op := f.op.toNat
  match fSpec op with
  | none => .error .illegalInstruction
  | some sp =>
    if privileged op && !env.priv then .error .illegalInstruction
    else
      match f.ops with
      | none => .error .illegalInstruction
      | some o =>
        match sp.check env op o with
        | some c => .error c
        | none =>
          match Instr.ofF op o with
          | none => .error .illegalInstruction
          | some i => .ok i

/-! ### The L format -/

/-- The instruction of an L word, or the cause of R74 (R62). -/
def decodeL (env : Env) (w : DWord) : Except Cause Instr :=
  let op := (w.extractLsb' 52 10).toNat
  match lSpec op with
  | none => .error .illegalInstruction
  | some sp =>
    let o : LOps := ⟨w.extractLsb' 40 8, w.extractLsb' 32 8, w.extractLsb' 0 32, w.extractLsb' 48 4⟩
    match sp.check env o with
    | some c => .error c
    | none =>
      match Instr.ofL op o with
      | none => .error .illegalInstruction
      | some i => .ok i

/-- The L word of an op and its operands (R62). -/
def packL (op : Nat) (o : LOps) : DWord :=
  BitVec.ofNat 64 (joinFields [(32, o.imm.toNat), (8, o.a.toNat), (8, o.d.toNat), (4, o.la.toNat), (10, op), (2, 2)])

/-! ### The D format -/

/-- The code of a short operation (R66). -/
def Sop.code (s : Sop) : BitVec 7 :=
  match s with
  | .vadd => 0x01 | .vsub => 0x02 | .vmul => 0x03 | .vmin => 0x04 | .vmax => 0x05 | .vadds => 0x06 | .vsubs => 0x07
  | .vand => 0x08 | .vor => 0x09 | .vxor => 0x0A | .vshl => 0x0B | .vshr => 0x0C | .vsar => 0x0D | .vmov => 0x0E
  | .fadd => 0x10 | .fsub => 0x11 | .fmul => 0x12 | .fmin => 0x13 | .fmax => 0x14
  | .sadd => 0x20 | .ssub => 0x21 | .sand => 0x22 | .sor => 0x23 | .sxor => 0x24 | .sshl => 0x25 | .sshr => 0x26 | .ssar => 0x27
  | .smin => 0x28 | .smax => 0x29

/-- The short operation of a code other than NOP's (R66). -/
def Sop.ofCode (c : BitVec 7) : Option Sop :=
  match c.toNat with
  | 0x01 => some .vadd | 0x02 => some .vsub | 0x03 => some .vmul | 0x04 => some .vmin | 0x05 => some .vmax
  | 0x06 => some .vadds | 0x07 => some .vsubs | 0x08 => some .vand | 0x09 => some .vor | 0x0A => some .vxor
  | 0x0B => some .vshl | 0x0C => some .vshr | 0x0D => some .vsar | 0x0E => some .vmov
  | 0x10 => some .fadd | 0x11 => some .fsub | 0x12 => some .fmul | 0x13 => some .fmin | 0x14 => some .fmax
  | 0x20 => some .sadd | 0x21 => some .ssub | 0x22 => some .sand | 0x23 => some .sor | 0x24 => some .sxor
  | 0x25 => some .sshl | 0x26 => some .sshr | 0x27 => some .ssar | 0x28 => some .smin | 0x29 => some .smax
  | _ => none

/-- The fields of a D-word slot (R63). -/
structure SlotWord where
  sop : BitVec 7
  d : BitVec 8
  b : BitVec 8
  sb : BitVec 1
  ib : BitVec 1
  k : BitVec 3
  ke : BitVec 1
  dt : BitVec 2
  deriving DecidableEq, Repr

/-- The fields of the slot whose bit 0 stands at `at0` of the word (R63). -/
def SlotWord.unpack (w : DWord) (at0 : Nat) : SlotWord where
  sop := w.extractLsb' (at0 + 24) 7
  d := w.extractLsb' (at0 + 16) 8
  b := w.extractLsb' (at0 + 8) 8
  sb := w.extractLsb' (at0 + 7) 1
  ib := w.extractLsb' (at0 + 6) 1
  k := w.extractLsb' (at0 + 3) 3
  ke := w.extractLsb' (at0 + 2) 1
  dt := w.extractLsb' at0 2

/-- The widths and values of a slot's fields, least significant first. -/
def SlotWord.fields (s : SlotWord) : List (Nat × Nat) :=
  [(2, s.dt.toNat), (1, s.ke.toNat), (3, s.k.toNat), (1, s.ib.toNat), (1, s.sb.toNat), (8, s.b.toNat), (8, s.d.toNat), (7, s.sop.toNat)]

/-- The short operation of a slot; none where R66 refuses its sop, its modifier combination or a field of a NOP slot. -/
def SlotWord.short (s : SlotWord) : Option Short :=
  if s.sop = 0 then
    if s.d = 0 ∧ s.b = 0 ∧ s.sb = 0 ∧ s.ib = 0 ∧ s.k = 0 ∧ s.ke = 0 ∧ s.dt = 0 then some .nop else none
  else if (s.sb = 1 ∧ s.ib = 1) ∨ (s.ke = 0 ∧ s.k ≠ 0) then none
  else
    match Sop.ofCode s.sop with
    | none => none
    | some sop => some (.op sop {
        d := s.d
        b := if s.ib = 1 then .imm s.b else if s.sb = 1 then .scalar s.b else .reg s.b
        mask := if s.ke = 1 then some s.k else none
        dt := s.dt })

/-- The slot fields of a short operation (R63). -/
def SlotWord.ofShort (s : Short) : SlotWord :=
  match s with
  | .nop => ⟨0, 0, 0, 0, 0, 0, 0, 0⟩
  | .op sop x => {
      sop := sop.code
      d := x.d
      b := match x.b with | .reg n => n | .scalar n => n | .imm n => n
      sb := match x.b with | .scalar _ => 1 | _ => 0
      ib := match x.b with | .imm _ => 1 | _ => 0
      k := match x.mask with | some k => k | none => 0
      ke := match x.mask with | some _ => 1 | none => 0
      dt := x.dt }

/-- The instruction of a D word, or the cause of R74: slot 0 stands in bits [61:31] and slot 1 in bits [30:0] (R63). -/
def decodeD (env : Env) (w : DWord) : Except Cause Instr :=
  match (SlotWord.unpack w 31).short, (SlotWord.unpack w 0).short with
  | some s0, some s1 =>
    match dualCheck env s0 s1 with
    | some c => .error c
    | none => .ok (Instr.ofD s0 s1)
  | _, _ => .error .illegalInstruction

/-- The D word of two slots (R63). -/
def packD (s0 s1 : Short) : DWord :=
  BitVec.ofNat 64 (joinFields ((SlotWord.ofShort s1).fields ++ (SlotWord.ofShort s0).fields ++ [(2, 1)]))

/-! ### Words -/

/-- The instruction of a word that a team of the environment issues, or the cause of the first check of R74 that fails. -/
def decode (env : Env) (w : DWord) : Except Cause Instr :=
  match (w.extractLsb' 62 2).toNat with
  | 0 => decodeF env w
  | 1 => decodeD env w
  | 2 => decodeL env w
  | _ => .error .illegalInstruction

/-- The word of an instruction; none for a step of another agent, which no word encodes. -/
def encode (i : Instr) : Option DWord :=
  match i.fForm with
  | some (op, o) => some (FWord.ofOps op o).pack
  | none =>
    match i.lForm with
    | some (op, o) => some (packL op o)
    | none =>
      match i.dForm with
      | some (s0, s1) => some (packD s0 s1)
      | none => none

/-- The word at 8 bytes, little-endian (R4, R52). -/
def wordOfBytes (bs : List Byte) : Option DWord :=
  match bs with
  | [b0, b1, b2, b3, b4, b5, b6, b7] =>
    some (BitVec.ofNat 64 (joinFields [(8, b0.toNat), (8, b1.toNat), (8, b2.toNat), (8, b3.toNat), (8, b4.toNat), (8, b5.toNat),
      (8, b6.toNat), (8, b7.toNat)]))
  | _ => none

/-- The 8 bytes of a word, little-endian (R4). -/
def bytesOfWord (w : DWord) : List Byte :=
  (List.range 8).map (fun i => w.extractLsb' (8 * i) 8)

/-- The environment that refuses the fewest words: a privileged team with V = 256 and TW = 1,024 and no queue register bound. -/
def Env.widest : Env := ⟨true, 256, 1024, 0⟩

/-- The instruction that the decoder reads from a word whose bits are numbered as spec/opcode_table.json numbers them: the table gives no
row any bits, so the word is `w` with the bits at and above `nbits` zero, laid out little-endian and read by the decoder. -/
def decodeTableWord (nbits w : Nat) : Option Instr :=
  match wordOfBytes (bytesOfWord (BitVec.ofNat 64 (w % 2 ^ nbits))) with
  | none => none
  | some x =>
    match decode Env.widest x with
    | .ok i => some i
    | .error _ => none

end Sys2Proof
end

