-- ==== Sys2Proof/Config.lean ====
section
/-! DEFINITION. What an implementation of Tlaust fixes and the manual leaves open, and the free values: constants without a body, so
that no proof can see a value of them (assumption log 2, 11, 13, 14, 15, 106). -/
namespace Sys2Proof

/-- A free value, one for each value of `State.free` (log 2). -/
opaque Config.freeValue : Nat → DWord

/-- The bytes of a save image beyond the 136 that the model names: TW, V, teams and declared scratchpad bytes (R7, R369; log 11). -/
opaque Config.saveExtra : Nat → Nat → Nat → Nat → Nat

/-- A byte of a save image that R369 does not name, by the image's token and the byte's offset (R7, R369; log 11). -/
opaque Config.saveByte : Nat → Nat → Byte

/-- Whether a slice with so many plots left in cache mode and so many pinned lines, which they could hold, refuses a conversion for want of
ways (R12; log 14). -/
opaque Config.tooFewWays : Nat → Nat → Bool

/-- The entry that a full translation cache, and the line that a full slice or L1, gives up, by the free counter (R166, R327; log 15, log 71). -/
opaque Config.victim : Nat → Nat

/-- The set of a last-level TLB in which an entry of a context, first address and page size lies, of 128 by its remainder (R327; log 74). -/
opaque Config.tlbSet : Nat → Nat → Nat → Nat

/-- The set of a slice's snoop filter in which a line is tracked, of 1,024 by its remainder (R221; log 56). -/
opaque Config.snoopSet : Nat → Nat

/-- SHA3-256 (R393, R394; log 13). -/
opaque Config.sha3 : List Byte → BitVec 256

/-- ML-DSA-44 verification: key, message, signature (R393; log 13). -/
opaque Config.mldsaVerify : List Byte → List Byte → List Byte → Bool

/-- The bytes of the ML-DSA-44 signature of a message by the identity key (R394; log 13). -/
opaque Config.identitySign : List Byte → Nat → Byte

/-- The bytes of the device identity public key (R394; log 13). -/
opaque Config.identityKey : Nat → Byte

/-- The vendor key digest fused into the part (R393; log 13). -/
opaque Config.vendorKeyDigest : BitVec 256

/-- The fused minimum security version of a component (R393; log 13). -/
opaque Config.minVersion : Nat → BitVec 32

/-- A byte of the G960's extended capability in a function's configuration space, but for the health word (R384, R391; log 106). -/
opaque Config.capabilityByte : Nat → Nat → Byte

/-- A byte of a register of the I3C target other than register 0x00: register and byte (R391; log 106). -/
opaque Config.sidebandByte : Nat → Nat → Byte

/-- The result of a special function that the interval evaluation leaves undecided: function code, format code, operand. The result
of R83 is one of the format's values, and this constant stands for it (log 16). -/
opaque Config.special : Nat → Nat → Word32 → Word32

end Sys2Proof
end

