-- ==== Sys2Proof/Machine/Maps.lean ====
section
/-! DEFINITION. Keyed collections as sorted lists of pairs: plain reads and writes for records, canonical writes (an entry equal to
the default is not listed) for memory bytes and registers; little-endian bytes (R4). -/
namespace Sys2Proof.Machine

/-- A collection keyed by numbers: pairs in rising key order. -/
abbrev Map (α : Type) := List (Nat × α)

/-- The value at key `n`, or `d` where the key is not listed. -/
def Map.get {α : Type} (m : Map α) (d : α) (n : Nat) : α :=
  match m with
  | [] => d
  | (k, v) :: r => if k = n then v else Map.get r d n

/-- The value at key `n`, if the key is listed. -/
def Map.find {α : Type} (m : Map α) (n : Nat) : Option α :=
  match m with
  | [] => none
  | (k, v) :: r => if k = n then some v else Map.find r n

/-- The collection with value `v` at key `n`. -/
def Map.set {α : Type} (m : Map α) (n : Nat) (v : α) : Map α :=
  match m with
  | [] => [(n, v)]
  | (k, w) :: r =>
    if n < k then (n, v) :: (k, w) :: r
    else if n = k then (n, v) :: r
    else (k, w) :: Map.set r n v

/-- The collection without key `n`. -/
def Map.erase {α : Type} (m : Map α) (n : Nat) : Map α :=
  m.filter (fun p => p.1 ≠ n)

/-- The canonical write: writing the default removes the entry. -/
def Map.put {α : Type} [DecidableEq α] (m : Map α) (d : α) (n : Nat) (v : α) : Map α :=
  if v = d then m.erase n else m.set n v

/-- Every value replaced by its image. -/
def Map.mapValues {α : Type} (m : Map α) (f : Nat → α → α) : Map α :=
  m.map (fun p => (p.1, f p.1 p.2))

/-- The value at key `n` replaced by its image, where the key is listed. -/
def Map.update {α : Type} (m : Map α) (n : Nat) (f : α → α) : Map α :=
  m.map (fun p => if p.1 = n then (p.1, f p.2) else p)

/-- Keys strictly rising. -/
def Map.sorted {α : Type} (m : Map α) : Bool :=
  match m with
  | [] => true
  | (k, _) :: r => r.all (fun p => k < p.1) && Map.sorted r

/-- The canonical form: keys strictly rising and no entry equal to the default. -/
def Map.wf {α : Type} [DecidableEq α] (d : α) (m : Map α) : Bool :=
  m.sorted && m.all (fun p => p.2 ≠ d)

/-- Bytes by address; an address that is not listed reads as zero (log 10). -/
abbrev Memory := Map Byte

/-- The byte at an address. -/
def Memory.byte (m : Memory) (a : Nat) : Byte := Map.get m 0 a

/-- The memory with one byte written, in canonical form. -/
def Memory.put (m : Memory) (a : Nat) (b : Byte) : Memory := Map.put m 0 a b

/-- The memory with bytes written at rising addresses from `a`. -/
def Memory.write (m : Memory) (a : Nat) (bs : List Byte) : Memory :=
  match bs with
  | [] => m
  | b :: r => Memory.write (Memory.put m a b) (a + 1) r

/-- The bytes at `a` to `a + n − 1`. -/
def Memory.read (m : Memory) (a n : Nat) : List Byte :=
  (List.range n).map (fun i => Memory.byte m (a + i))

/-- The canonical form of a memory. -/
def Memory.wf (m : Memory) : Bool := Map.wf 0 m

/-- The number that bytes stand for, little-endian (R4). -/
def leNat (bs : List Byte) : Nat :=
  match bs with
  | [] => 0
  | b :: r => b.toNat + 256 * leNat r

/-- The `n` bytes of a number, little-endian (R4). -/
def leBytes (n v : Nat) : List Byte :=
  match n with
  | 0 => []
  | n + 1 => BitVec.ofNat 8 v :: leBytes n (v / 256)

end Sys2Proof.Machine
end

