-- ==== Sys2Proof/Machine/State.lean ====
section
/-! DEFINITION. Everything that the manual gives the G960 to hold, as plain data: team registers, gangs, cores, slices, memories,
tables, queues, counters and the platform (R18), and the model's own agenda of which agent moves next (log 1). -/
namespace Sys2Proof.Machine

/-! ### Registers of a team -/

/-- A stream endpoint (R110, R111): base, element type, byte stride, count (0 means unbounded), position, and the vectors that a
load stream has read ahead of its pops. -/
structure Stream where
  base : DWord
  ty : ElemType
  stride : BitVec 32
  count : Nat
  pos : Nat
  ahead : List (List Word32)
  deriving DecidableEq, Repr

/-- What a queue register is bound to (R109); `none` of the register file is code 0. -/
inductive Binding where
  | load (st : Stream)
  | store (st : Stream)
  | matrix
  | epilogue
  | copy
  | network
  | loam (handle : BitVec 24)
  deriving DecidableEq, Repr

/-- The registers of a team that a handler, a shadow or a save image carries whole (R97): the program counter, the vector, scalar,
mask and queue registers, and the special registers that a program reads and writes (R104). -/
structure TeamRegs where
  pc : DWord
  v : Map (List Word32)
  s : Map DWord
  k : Map Mask
  em : Mask
  q : Map Binding
  fflags : BitVec 5
  uhandler : DWord
  ucause : DWord
  uepc : DWord
  uval : DWord
  uien : BitVec 11
  deriving DecidableEq, Repr

/-- One register write of a result: the lanes of a vector register that it gives a value, in ascending order, a whole mask, or a scalar
register. -/
inductive RegWrite where
  | vec (n : Nat) (lanes : List (Option Word32))
  | mask (n : Nat) (x : Mask)
  | scal (n : Nat) (x : DWord)
  deriving DecidableEq, Repr

/-- A load whose access has not been performed: destination register, whether it is a scalar, element type, cache policy (R60: 0 default,
1 stream, 2 keep, 3 no-L1), and each active lane with its effective address (R71, R184, R185). -/
structure PendingLoad where
  d : Nat
  scalar : Bool
  ty : ElemType
  policy : BitVec 2
  lanes : List (Nat × DWord)
  deriving DecidableEq, Repr

/-- An instruction that popped a load stream whose read faulted (R71, R110): its op and fields, the registers as it read them, and the
streams that a and b popped, each at the position of the pop. -/
structure PendingPop where
  op : Nat
  o : Ops
  regs : TeamRegs
  a : Option Stream
  b : Option Stream
  deriving DecidableEq, Repr

/-- What a window still has to access: a load, or the pops of an instruction. -/
inductive Pending where
  | load (l : PendingLoad)
  | pop (p : PendingPop)
  deriving DecidableEq, Repr

/-- The result of a long-latency instruction while its window is open (R68, R71). -/
inductive WindowResult where
  | ready (writes : List RegWrite) (flags : BitVec 5)
  | pending (p : Pending)
  | faulted (p : Pending) (cause : Cause) (va : DWord)
  deriving DecidableEq, Repr

/-- An open lookahead window (R68): the address of the long-latency instruction, the instructions still to issue in the window, and
its result. -/
structure Window where
  pc : DWord
  left : Nat
  res : WindowResult
  deriving DecidableEq, Repr

/-- What a wait waits for (R48, R200, R202, R263, R347, R352). `hint` is the hinted time of a try-wait in ticks, and `d` the
register that receives its result. -/
inductive WaitKind where
  | word (ea : DWord) (cond : BitVec 2) (ty : ElemType) (value : DWord) (hint : Option Nat) (d : Nat)
  | barrier (b : Nat) (token : BitVec 16) (sync : Bool) (hint : Option Nat) (d : Nat)
  | push (c : Nat) (x : Word32)
  | pop (c d : Nat)
  | counter (n : Nat) (threshold : DWord)
  deriving DecidableEq, Repr

/-- A wait in progress: what it waits for, the ticks counted since it issued (the watchdog, or the elapsed hint), whether half the
limit has passed, and the cycle in which it issued (R50, R264, R353). -/
structure Wait where
  kind : WaitKind
  ticks : Nat
  half : Bool
  cycle : Nat
  deriving DecidableEq, Repr

/-- What a parked team does when its park ends (R362): reissue the instruction at its PC, write an ECALL's result, or go on. -/
inductive ParkKind where
  | reissue
  | window
  | ecall (d : Nat)
  | goOn
  | emulation
  deriving DecidableEq, Repr

/-- Where a group of an atomic is performed (R193): in a gang's scratchpad, or at a physical address, by CXL.cache or at home (`cached`) or
by the path of home 3, or at the hub (R330). -/
inductive AtomicPlace where
  | scratch (gang off : Nat)
  | home (pa : Nat) (cached : Bool)
  | hub (off : Nat)
  deriving DecidableEq, Repr

/-- The active lanes of an atomic that name one word by one address (R194), with its place. -/
structure AtomicGroup where
  lanes : List Nat
  va : DWord
  place : AtomicPlace
  deriving DecidableEq, Repr

/-- An atomic or JOIN that waits for the host (R387): its op and fields, the groups that are not performed, of which the first waits, the
old values so far, the record that a JOIN has read, whether it waits for ownership of the line, the status that an AtomicOp of the group has had,
and the cause with which the team ends once the atomic is done, where its gang has ended (R45). -/
structure AtomicWait where
  op : Nat
  o : Ops
  groups : List AtomicGroup
  olds : List (Nat × DWord)
  record : List Byte
  viaCache : Bool
  io : BitVec 3
  ending : Option Cause
  deriving DecidableEq, Repr

/-- The states of R43, with what each needs. `absent` is no team at all; pre-emption is a state of the gang. -/
inductive TeamStatus where
  | absent
  | ready
  | waiting (w : Wait)
  | atomicOp (w : AtomicWait)
  | parked (fn id : Nat) (cause : Cause) (kind : ParkKind)
  | exited
  | ended (cause : Cause)
  deriving DecidableEq, Repr

/-- The remaining effect of a deferred instruction (R361). `value` has made its effect and has only its destination to write; the
others name the operator slot being installed and OPINST's code, the operator handle, the number of the release and its result, the gang and save area, or the
invalidation that they wait for. -/
inductive DeferredOp where
  | value (x : DWord)
  | opinst (slice slot : Nat) (code : DWord)
  | opseal (h : DWord)
  | opuninst (h : DWord)
  | lmrel (id : Nat) (result : Option DWord)
  | ctxsave (gang area : DWord)
  | tlbinv (id : Nat)
  deriving DecidableEq, Repr

/-- A deferred instruction that has issued and has not written its destination (R361). -/
structure Deferred where
  pc : DWord
  d : Nat
  op : DeferredOp
  deriving DecidableEq, Repr

/-- The token that an ended BARSYNC keeps, and whether it was issued in the handler (R348). -/
structure HeldSync where
  inHandler : Bool
  barrier : Nat
  token : BitVec 16
  pc : DWord
  deriving DecidableEq, Repr

/-- What a fault id holds until RESUME (R362, R366): a parked team, an engine's command, a dispatch completion, a ring slot or WAIT of
a host queue, or a network placement. -/
inductive Held where
  | team (team : Nat)
  | command (core id : Nat)
  | completion (dispatch : Nat)
  | ringSlot (queue : Nat)
  | waitPacket (queue : Nat)
  | placement (conn : Nat)
  | send (conn id : Nat)
  deriving DecidableEq, Repr

/-- A cause charged to a team by an engine, not yet taken at a boundary, the access bits of its record (R273), and the number of its
command, by which the causes of one boundary are ordered (R359, R360). -/
structure AsyncCause where
  cause : Cause
  pc : DWord
  value : DWord
  access : Byte
  holds : Option Held
  order : Nat
  deriving DecidableEq, Repr

/-- A word of a register file that holds an uncorrectable error (R175): a lane of a vector register, a scalar register or a mask register. -/
inductive BadReg where
  | vector (n lane : Nat)
  | scalar (n : Nat)
  | mask (n : Nat)
  deriving DecidableEq, Repr

/-- A team: its registers, its place, its state of R43 and the control state that the core keeps for it. `stalled` holds, for a team whose
push to the matrix command queue or footprint scheduler stalls, the ticks counted while the epilogue is stopped (R260). `stuck` says that the
team's instruction stalled when it last came to issue, and whether it did so on a queue register or engine queue (R39, R356, R359); `fresh` are
the pending bits of UIEN set in a cycle, with that cycle (R134), `bad` lists its poisoned registers (R175), and `cyc` is the highest value of CYC
that it has read (R132; log 83). -/
structure Team where
  regs : TeamRegs
  gang : Nat
  teamid : Nat
  slot : Nat
  pipe : Nat
  status : TeamStatus
  h : Bool
  windows : List Window
  frozen : List Window
  deferred : List Deferred
  held : List HeldSync
  async : List AsyncCause
  starve : Nat
  forced : Bool
  yieldTo : List Nat
  stop : Bool
  tcause : Byte
  tepc : DWord
  tval : DWord
  shadow : Option TeamRegs
  shadowH : Bool
  stalled : Option Nat
  stuck : Option Bool
  fresh : Nat × BitVec 11
  bad : List BadReg
  cyc : Nat
  deriving DecidableEq, Repr

/-! ### Gangs and dispatches -/

/-- A named barrier (R339); `arrived` holds the arrival bits that the core keeps for b0, and `bySync` whether every arrival of the
phase was made by BARSYNC (R371). `stamp` is the cycle of the last change and its rank in it: a team slot, or 1,024 for an engine (R341). -/
structure Barrier where
  init : Bool
  gang : Nat
  expected : Nat
  arrivals : Nat
  balance : DWord
  phase : BitVec 16
  arrived : BitVec 16
  bySync : Bool
  stamp : Nat × Nat
  deriving DecidableEq, Repr

/-- A named gang queue (R262, R263). `tried` is one more than the cycle in which a TRYPOPC last found it empty: a push of that cycle comes
before it (R264). -/
structure NamedQueue where
  init : Bool
  gang : Nat
  offset : Nat
  slots : Nat
  head : Nat
  count : Nat
  tried : Nat
  deriving DecidableEq, Repr

/-- The part of a rollback shadow that belongs to the gang (R371). -/
structure GangShadow where
  scratchpad : Memory
  barriers : Map Barrier
  queues : Map NamedQueue
  deriving DecidableEq, Repr

/-- A FETCHW request whose mailbox is not yet written: mailbox offset and dispatch (R272). -/
structure FetchRequest where
  mailbox : Nat
  dispatch : Nat
  deriving DecidableEq, Repr

/-- Where a gang stands: resident on its core, saved by the scheduler or by CTXSAVE (R368), or gone. -/
inductive GangState where
  | resident
  | saved
  | retired
  | ended
  deriving DecidableEq, Repr

/-- A named barrier or queue of a gang whose record holds an uncorrectable error (R175). -/
inductive BadSync where
  | barrier (n : Nat)
  | queue (n : Nat)
  deriving DecidableEq, Repr

/-- A gang (R25): its place in its dispatch, its shape, its scratchpad, barriers and named queues, its blocks of the core store (base
and size), rollback, audit and FETCHW state (the indices withdrawn and not reported, by dispatch, the last first), the write-back fault that
its first team takes after a restore (R368), the event counters that a restore did not get back (R357), its figures a and m of R354, its poisoned
barriers and queues (R175), whether a rollback waits for its started commands (R373), whether it is the replay of a sampled gang, and the bytes that a
replay has written outside its scratchpad, by physical address (R375). -/
structure Gang where
  state : GangState
  dispatch : Nat
  glin : Nat
  x : Nat
  y : Nat
  z : Nat
  core : Nat
  nteams : Nat
  tw : Nat
  vregs : Nat
  scratch : Nat
  persistent : Bool
  blocks : List (Nat × Nat)
  scratchpad : Memory
  barriers : Map Barrier
  queues : Map NamedQueue
  shadow : Option GangShadow
  isSealed : Bool
  rollbacks : Nat
  sampled : Bool
  audit : DWord
  fetches : List FetchRequest
  withdrawn : Map (List Nat)
  poison : List Nat
  heldFault : Option (Cause × DWord)
  lapsed : Map (BitVec 48)
  work : Nat
  lines : Nat
  badSync : List BadSync
  rolling : Bool
  replay : Bool
  written : Map Byte
  deriving DecidableEq, Repr

/-- A dispatch: its entry in the dispatch table (R337) and what the command processor keeps for its gangs: those admitted and not retired,
those retired, withdrawn indices not reported, audits to come, its own first error and that of its continuations, the two arithmetic-intensity
counters and the mark (R354), whether a fault holds its completion, and its continuations. -/
structure Dispatch where
  valid : Bool
  queue : Nat
  ctx : Nat
  packet : Nat
  signal : DWord
  entry : DWord
  shape : DWord
  arg : DWord
  joinVA : DWord
  dimX : Nat
  dimY : Nat
  dimZ : Nat
  key : BitVec 32
  parallel : Bool
  fetchable : Bool
  rollback : Bool
  auditable : Bool
  cont : Bool
  next : Nat
  live : Nat
  retired : Nat
  unreported : List Nat
  audits : List Nat
  failed : Option Cause
  contFailed : Option Cause
  work : DWord
  lines : DWord
  mark : BitVec 2
  completing : Bool
  conts : Nat
  parent : Nat
  slot : Nat
  deriving DecidableEq, Repr

/-! ### Cores -/

/-- A line of an L1 (R168): the context whose fill or store allocated it, the 128-byte line of physical memory, the virtual line by
which its dirty words are translated at write-back, valid and dirty bits of its 32 words, its words, whether a failed write-back
holds it (R218), the line of the core store in which it lies (R100), its rank for eviction by the policy of R166 (0 stream, 1 default, 2 keep),
the tick of the oldest store whose word is still dirty (R170), and the words that hold an uncorrectable error (R175). -/
structure L1Line where
  ctx : Nat
  line : Nat
  vline : Nat
  valid : Word32
  dirty : Word32
  data : Map Word32
  held : Bool
  slot : Nat
  rank : Nat
  since : Nat
  bad : Word32
  deriving DecidableEq, Repr

/-- The fields of a leaf, as a translation remembers them (R324, R327). -/
structure Leaf where
  base : Nat
  size : Nat
  writable : Bool
  execute : Bool
  home : BitVec 2
  kind : BitVec 2
  aux : BitVec 7
  entry : Nat
  dirtySet : Bool
  deriving DecidableEq, Repr

/-- An entry of a translation cache: context, first virtual address covered, and the leaf (R327). -/
structure TlbEntry where
  ctx : Nat
  va : Nat
  leaf : Leaf
  deriving DecidableEq, Repr

/-- An entry of a die's walk cache (R327): context, level of the table page, the virtual address of the first byte that the page covers, and
the page's physical address. -/
structure WalkEntry where
  ctx : Nat
  level : Nat
  va : Nat
  table : Nat
  deriving DecidableEq, Repr

/-- The states of an accumulator tile (R308). -/
inductive TileState where
  | isOpen
  | pending
  | draining
  deriving DecidableEq, Repr

/-- The epilogue configuration of R311, with the two vectors read when the engine reached EPCFG. -/
structure EpConfig where
  dest : Nat
  rstride : Nat
  blk : BitVec 2
  isInt : Bool
  toQueue : Bool
  fmt : BitVec 2
  bias : Bool
  scale : Bool
  act : BitVec 2
  colscale : List Word32
  biases : List Word32
  lo : Word32
  hi : Word32
  deriving DecidableEq, Repr

/-- A drain in progress: its tile, the ACCADV command it ends, and the output words still to be placed (R312). -/
structure Drain where
  tile : Nat
  command : Nat
  words : List Word32
  deriving DecidableEq, Repr

/-- The matrix engine of a core (R296): owner, tiles of 64 × 64 words, tile states, head, scale memory, configuration in force and
those captured with the passed tiles, tiles passed and not yet drained with their ACCADV commands, the drain in progress, the drained
count, the epilogue output queue, the command that service firmware is emulating (R316), and the words of tiles and entries of scale memory
that hold an uncorrectable error (R175), as 4,096·tile + word and 65,536 + entry. -/
structure Engine where
  owner : Option Nat
  tiles : Map (Map Word32)
  states : Map TileState
  head : Nat
  scales : Map (BitVec 10)
  cfg : EpConfig
  cfgIssued : EpConfig
  captured : Map EpConfig
  passed : List (Nat × Nat)
  drain : Option Drain
  drained : BitVec 16
  outq : List Word32
  emulating : Option Nat
  bad : List Nat
  deriving DecidableEq, Repr

/-- A region of a footprint (R274): virtual base, length, whether it is written. -/
structure Region where
  base : Nat
  len : Nat
  writes : Bool
  deriving DecidableEq, Repr

/-- The completion word (offset and value) and the barrier that a copy command or ACCADV credits (R278). -/
structure Completion where
  word : Option (Nat × Word32)
  barrier : Option Nat
  deriving DecidableEq, Repr

/-- A copy command (R279 to R281), its operands read at issue. -/
inductive CopyCmd where
  | copy (dst src : DWord) (n0 n1 n2 : Nat) (ds1 ss1 ds2 ss2 : DWord)
  | fill (dst pattern : DWord) (z n0 n1 n2 : Nat) (ds1 ds2 : DWord)
  | gather (dst src : DWord) (n n0 : Nat) (list : DWord) (ty : ElemType) (stride scale : DWord) (bound : Nat)
  deriving DecidableEq, Repr

/-- The forms of MMA (R302 to R305). -/
inductive MmaForm where
  | dense
  | sparse
  | triangular
  deriving DecidableEq, Repr

/-- A matrix or epilogue command (R297), its operands read at issue. -/
inductive MatrixCmd where
  | mma (form : MmaForm) (w0 w1 : DWord) (offA offB : Nat)
  | scld (offset first count : Nat)
  | accz
  | accadv
  | epcfg (w0 w1 bounds : DWord)
  deriving DecidableEq, Repr

/-- A field descriptor of a bed (R241). -/
structure Field where
  start : Nat
  width : Nat
  signed : Bool
  deriving DecidableEq, Repr

/-- The second source of a computing command: a field, or with .c a constant (R246). -/
inductive LoamSrc where
  | field (f : Field)
  | const (c : Int)
  deriving DecidableEq, Repr

/-- A loam command (R249 to R252), its operands read at issue. LMREL travels as a release (R244). -/
inductive LoamOp where
  | lmin (d : Field) (lane0 n : Nat) (va : DWord)
  | lmout (d : Field) (lane0 n : Nat) (va : DWord)
  | add (d x : Field) (y : LoamSrc)
  | sub (d x : Field) (y : LoamSrc)
  | mul (d x : Field) (y : LoamSrc)
  | logic (op : BitVec 2) (d x : Field) (y : LoamSrc)
  | cmp (rel : BitVec 2) (d x : Field) (y : LoamSrc)
  | sel (d x : Field) (y : LoamSrc)
  | mm (isMax : Bool) (d x : Field) (y : LoamSrc)
  | shift (op : BitVec 2) (d x : Field) (k : Nat)
  | red (op : BitVec 2) (d x : Field) (j : Nat)
  | matches (d x : Field) (key : DWord)
  | count (d x : Field)
  | done (offset : Nat) (value : Word32)
  | release (team id : Nat)
  deriving DecidableEq, Repr

/-- A loam command for a bed: its handle, its operation and the mask field of .m. -/
structure LoamCmd where
  handle : BitVec 24
  op : LoamOp
  mask : Option Field
  deriving DecidableEq, Repr

/-- The kinds of command that a footprint scheduler holds (R274). -/
inductive CmdKind where
  | copy (c : CopyCmd)
  | matrix (m : MatrixCmd)
  | loam (l : LoamCmd)
  deriving DecidableEq, Repr

/-- A command of a footprint scheduler (R274 to R276): its number, its issuing team, gang and context, the address and word of its
instruction, its regions, the commands it has an edge from, whether it has started, whether a fault stops it (R283), how many of its
runs or elements are performed, the source of the gathered row that it is copying (R281), and its completion. -/
structure Cmd where
  id : Nat
  team : Nat
  gang : Nat
  ctx : Nat
  pc : DWord
  word : DWord
  kind : CmdKind
  regions : List Region
  edges : List Nat
  started : Bool
  stopped : Bool
  progress : Nat
  rowSrc : Option DWord
  completion : Completion
  deriving DecidableEq, Repr

/-- The kinds of network command (R286). -/
inductive NetKind where
  | npost
  | nunpost
  | nsend
  | nsendt
  deriving DecidableEq, Repr

/-- A network command in a core's network command queue (R286): operands read at issue. -/
structure NetCmd where
  team : Nat
  gang : Nat
  ctx : Nat
  pc : DWord
  kind : NetKind
  va : DWord
  offset : DWord
  len : Nat
  conn : Nat
  buffer : Nat
  counter : Nat
  threshold : Nat
  word : Option (Nat × Word32)
  deriving DecidableEq, Repr

/-- An event counter (R356, R357): gang that holds it, event, value. -/
structure EventCounter where
  gang : Option Nat
  event : Nat
  value : BitVec 48
  deriving DecidableEq, Repr

/-- A core (R9, R259, R296, R338). CYC is `cyc` and what its island has counted since `cycAt` nominal cycles (R15). `mappings` are the live scratchpad mapping slots: context, entry and gang (R332). -/
structure Core where
  l1 : List L1Line
  tlb : List TlbEntry
  cyc : Nat
  cycAt : Nat
  engine : Engine
  cmds : List Cmd
  netq : List NetCmd
  counters : Map EventCounter
  mappings : List (Nat × Nat × Nat)
  suspect : Bool
  deriving DecidableEq, Repr

/-! ### Slices -/

/-- The modes of a plot (R12). -/
inductive PlotMode where
  | cache
  | operator
  | loam
  deriving DecidableEq, Repr

/-- A slice's copy of a line (R173): valid and dirty bits of its words, its words, whether it is pinned (R165), the plot in which it lies (R12,
R174), and its rank for eviction by the policy of R166. -/
structure SliceLine where
  valid : Word32
  dirty : Word32
  data : Map Word32
  pinned : Bool
  plot : Nat
  rank : Nat
  deriving DecidableEq, Repr

/-- The MOESI states of a home directory entry (R220). -/
inductive DirState where
  | m | o | e | s | i
  deriving DecidableEq, Repr

/-- A home directory entry (R220): its state, the owning proxy slice of each word that has one, and the sharer dies. -/
structure DirEntry where
  state : DirState
  owners : Map Nat
  sharers : BitVec 5
  deriving DecidableEq, Repr

/-- The coherence messages of a line in flight (R220): requests of a proxy slice at the home, the home's forwards and invalidations, and a
forward acknowledgement on its way back. -/
inductive CohMsg where
  | ownership (slice : Nat) (words : Word32)
  | shared (slice : Nat)
  | forwardRead (requester owner : Nat)
  | forwardOwn (requester owner : Nat) (words : Word32)
  | forwardAck (owner : Nat)
  | invalidate (slice : Nat)
  deriving DecidableEq, Repr

/-- A snoop filter entry (R221): slice, line, whether the host holds the line modified, and whether a back-invalidate is out. -/
structure SnoopEntry where
  slice : Nat
  line : Nat
  modified : Bool
  invalidating : Bool
  deriving DecidableEq, Repr

/-- An apply slot of an operator (R227): bytes of the next generation, which of them have arrived, the overwrite count, and the poisoned
bytes (R237). -/
structure ApplySlot where
  bytes : Memory
  arrived : Memory
  overwrites : Nat
  bad : List Nat
  deriving DecidableEq, Repr

/-- A result slot (R225, R226): its element bytes, generation, overwrite count and flags (FIRED, POISON, INF, NAN in [3:0] from
the top), the number of fires, and the bytes of the slot that an uncorrectable error has poisoned (R175). -/
structure ResultSlot where
  bytes : Memory
  gen : BitVec 32
  overwrites : BitVec 16
  flags : BitVec 4
  fires : Nat
  bad : List Nat
  deriving DecidableEq, Repr

/-- A snapshot whose result is not yet written whole (R178, R229): its vector slot, its elements' bytes, the overwrite count, whether a byte that
its result consumes was poisoned when it was computed (R237), and the lines of the result that have been written. -/
structure Snapshot where
  slot : Nat
  vslot : Nat
  bytes : Memory
  overwrites : Nat
  poisoned : Bool
  lines : Nat
  deriving DecidableEq, Repr

/-- An installed operator (R223, R232): its formats, M, N, S, its matrix as bytes row by row, and its vector slots. -/
structure Operator where
  fmtIn : ElemType
  fmtOut : ElemType
  m : Nat
  n : Nat
  s : Nat
  matrix : Memory
  poisoned : Bool
  isSealed : Bool
  apply : Map ApplySlot
  result : Map ResultSlot
  filled : Map Nat
  deriving DecidableEq, Repr

/-- An operator slot record (R333) and what the slice keeps for it (R403): whether an installation is in progress, whether a
write of UNINST waits for its end, the team whose OPINST is parked on its source read, and the operator. -/
structure OpSlot where
  valid : Bool
  plots : Byte
  ctx : Nat
  applyFirst : Nat
  applyPages : Nat
  resultFirst : Nat
  resultPages : Nat
  installing : Bool
  removing : Bool
  installer : Option Nat
  op : Option Operator
  deriving DecidableEq, Repr

/-- Who makes a write on its way into an apply slot: a team, a command of a core's scheduler, a packet of a connection, or another agent. -/
inductive Writer where
  | team (team : Nat)
  | command (core id : Nat)
  | packet (conn : Nat)
  | other
  deriving DecidableEq, Repr

/-- A write on its way into an apply slot (R228): its maker, the context and virtual address under which it was translated (R328), operator
slot, window offset, bytes with their mask, and which of them are poisoned (R237). -/
structure ApplyWrite where
  writer : Writer
  ctx : Nat
  va : Nat
  slot : Nat
  offset : Nat
  bytes : List (Nat × Byte)
  bad : List Nat
  deriving DecidableEq, Repr

/-- A bed (R240): its plots, its context, its sequence number, its rows, the poisoned segments of each row (R255), and whether it has been
destroyed and ends once the command being performed completes (R245). -/
structure Bed where
  plots : Byte
  ctx : Nat
  seq : Byte
  rows : Map BedRow
  poison : Map BedRow
  dying : Bool
  deriving DecidableEq, Repr

/-- A slice (R8, R12, R222, R240): plot modes, operator slots, writes on their way to apply slots, snapshots in fire order, beds, the
sequence number that LMREQ advances, the loam commands that have arrived, by core and number, and the one that the engine is performing
(R253). -/
structure Slice where
  modes : Map PlotMode
  slots : Map OpSlot
  writes : List ApplyWrite
  fires : List Snapshot
  beds : Map Bed
  seq : Byte
  queue : List (Nat × Nat)
  running : Option (Nat × Nat)
  deriving DecidableEq, Repr

/-! ### Memories -/

/-- A CXL.cache request of the device that the host has not answered (R216, R387): the line and whether ownership is asked. -/
structure CxlRequest where
  line : Nat
  owned : Bool
  deriving DecidableEq, Repr

/-- The memories outside the cores (R161): DRAM, host memory, the slices' line copies by slice and line (key 128·line + slice), the
home directory by line, coherence messages by line, snoop filters, CXL.cache requests and grants, and poisoned words. -/
structure Mem where
  dram : Memory
  host : Memory
  copies : Map SliceLine
  dir : Map DirEntry
  msgs : List (Nat × CohMsg)
  snoop : List SnoopEntry
  requests : List CxlRequest
  granted : List (Nat × Bool)
  poison : List Nat
  deriving DecidableEq, Repr

/-! ### Tables and hub queues -/

/-- A function record (R331), its placement parameters (R336) and its fault queue (R273). -/
structure FnRecord where
  valid : Bool
  fring : DWord
  flog : BitVec 4
  refused : BitVec 32
  overflow : BitVec 32
  resumeBusy : Bool
  resumeCode : BitVec 2
  iva : DWord
  ictl : DWord
  invBusy : Option Nat
  invRefused : Bool
  nextId : Nat
  slot : Nat
  seeds : Map DWord
  sets : Map (BitVec 96)
  staged : Map DWord
  deriving DecidableEq, Repr

/-- A context record (R331). -/
structure CtxRecord where
  valid : Bool
  priv : Bool
  vfid : Nat
  root : Nat
  qlim : Nat
  plots : Nat
  cbase : Nat
  ccnt : Nat
  nbase : Nat
  ncnt : Nat
  deriving DecidableEq, Repr

/-- A continuation record in a continuation queue (R270, R271), with the packet and dispatch it belongs to. -/
structure ContRecord where
  code : DWord
  frame : DWord
  join : DWord
  shape : DWord
  packet : Nat
  parent : Nat
  deriving DecidableEq, Repr

/-- A WAIT packet that blocks its queue (R267): the awaited signal, the value, its own signal, the ticks it has waited, and whether a
fault holds it. -/
structure WaitPacket where
  awaited : DWord
  value : BitVec 32
  signal : DWord
  ticks : Nat
  held : Bool
  deriving DecidableEq, Repr

/-- A packet taken and not complete (R267): SIGNAL and NOP packets wait for the earlier ones. -/
inductive Taken where
  | dispatch (id : Nat)
  | signal (va : DWord) (post : Option Nat)
  | nop (va : DWord)
  deriving DecidableEq, Repr

/-- A host queue: its record (R331, R374, R376), its kick register (R265), and the packets taken and not complete. -/
structure HostQueue where
  valid : Bool
  suspended : Bool
  ring : DWord
  k : Nat
  prio : BitVec 2
  ctx : Nat
  watchdog : BitVec 32
  readIdx : Nat
  kick : Nat
  torn : Option Cause
  audit : BitVec 5
  taken : Map Taken
  wait : Option WaitPacket
  slotHeld : Bool
  conts : List ContRecord
  deriving DecidableEq, Repr

/-- A scratchpad mapping entry (R332). `removing` says that its valid bit has been cleared and that the mapping's write-back still waits. -/
structure MappingEntry where
  valid : Bool
  removing : Bool
  va : Nat
  dispatch : Nat
  glin : Nat
  pages : Nat
  offset : Nat
  deriving DecidableEq, Repr

/-- A bias entry (R335). -/
structure BiasEntry where
  exposed : Bool
  host : Bool
  busy : Bool
  toHost : Bool
  deriving DecidableEq, Repr

/-- A record for a fault queue (R273). -/
structure FaultRecord where
  fn : Nat
  id : Nat
  access : Byte
  source : Byte
  cause : Cause
  address : DWord
  iaddr : DWord
  dispid : Nat
  glin : Nat
  core : Nat
  teamid : Nat
  queue : Nat
  deriving DecidableEq, Repr

/-- What a fault id holds (R362, R366), with the page by which later faults share it (R327). -/
structure HeldFault where
  fn : Nat
  id : Nat
  cause : Cause
  page : Option (Nat × Nat)
  holds : List Held
  deriving DecidableEq, Repr

/-- Who asks for an invalidation (R328): a team or a function record. -/
inductive InvRequester where
  | team (team : Nat)
  | fn (fn : Nat)
  deriving DecidableEq, Repr

/-- An invalidation in progress (R328): its set (every translation, those of a context, or a range of it by first address and length) and
its requester. -/
structure Invalidation where
  id : Nat
  scope : Option (Nat × Option (Nat × Nat))
  by_ : InvRequester
  deriving DecidableEq, Repr

/-- A save image (R368 to R370): its token, the gang (whose record and teams stay in `gangs` and `teams`), the engine it owned, its
commands as images, its event counters by number with event and value, whether the scheduler saved it, whether CTXRST has accepted it, and the
write-back fault that its first team takes after the restore. -/
structure GangImage where
  id : Nat
  gang : Nat
  engine : Option Engine
  cmds : List Cmd
  netq : List NetCmd
  counters : Map (Nat × BitVec 48)
  byScheduler : Bool
  accepted : Bool
  heldFault : Option (Cause × DWord)
  deriving DecidableEq, Repr

/-! ### Network engine -/

/-- A posted buffer (R288). -/
structure Buffer where
  va : DWord
  len : Nat
  counter : Nat
  ctx : Nat
  deriving DecidableEq, Repr

/-- A packet that has arrived and is not yet published (R290): the buffer that it addresses, its offset, its bytes, and the buffer's
registration, or none where it is refused. -/
structure Packet where
  number : Nat
  offset : Nat
  bytes : List Byte
  target : Option Buffer
  deriving DecidableEq, Repr

/-- A packet sent to another device (R290): connection, sequence number, buffer, offset and bytes. -/
structure SentPacket where
  conn : Nat
  seq : Nat
  buffer : Nat
  offset : Nat
  bytes : List Byte
  deriving DecidableEq, Repr

/-- A send in flight (R290, R291): the command, its first packet number and the number of its packets, and whether its source is still to
be read, because a fault or the host holds it. -/
structure Send where
  id : Nat
  cmd : NetCmd
  first : Nat
  count : Nat
  held : Bool
  deriving DecidableEq, Repr

/-- A revocation in progress (R289): buffer and its registration, the highest packet number it waits for, and the command that asked. -/
structure Revocation where
  number : Nat
  buffer : Buffer
  upTo : Nat
  cmd : NetCmd
  deriving DecidableEq, Repr

/-- A connection (R285 to R294): sending and receiving sides. `placed` says that the packet to be published next is placed, and its bytes are
still on their way to an apply slot (R290); `acks` are the answers given to the sender, by packet number (R287, R289, R293). -/
structure Conn where
  isOpen : Bool
  failed : Bool
  sendSeq : Nat
  sends : List Send
  published : Nat
  highest : Nat
  arrived : Map Packet
  buffers : Map Buffer
  revocations : List Revocation
  waiting : List NetCmd
  held : Bool
  placed : Bool
  acks : List (Nat × Byte)
  deriving DecidableEq, Repr

/-- The network engine (R285): connections, receive counters, armed sends in arming order, packets sent to other devices. -/
structure Net where
  conns : Map Conn
  counters : Map DWord
  armed : List NetCmd
  sent : List SentPacket
  nextSend : Nat
  deriving DecidableEq, Repr

/-! ### Platform -/

/-- An island (R392): request, management limit, gated. -/
structure Island where
  request : BitVec 2
  limit : BitVec 2
  gated : Bool
  deriving DecidableEq, Repr

/-- An entry of the management block's event log (R15, R175, R237, R373, R375). -/
inductive LogEvent where
  | corrected (site : ErrorSite)
  | fireError (slice slot : Nat)
  | rollback (gang : Nat)
  | auditSkipped (dispatch glin : Nat)
  | throttle (island : Nat) (point : BitVec 2)
  deriving DecidableEq, Repr

/-- The platform (R390 to R394): health word, islands, event log, attestation registers, measurements, the sources of the Plovdy cluster's interrupt
controller that have been raised, in order, the harts that serve an emulation request with the core of each, and the cores whose requests wait, in the
order of their arrival (R390). -/
structure Platform where
  health : DWord
  selfTest : Bool
  safe : Bool
  retesting : Option Nat
  islands : Map Island
  log : List LogEvent
  nonce : List Byte
  report : Option Nat
  done : Bool
  measurements : List (BitVec 32 × BitVec 32 × BitVec 256)
  raised : List Nat
  harts : Map Nat
  requests : List Nat
  deriving DecidableEq, Repr

/-- A host access that waits at its home slice for a flip or a snoop (R386, R221), with the function through which it comes (R333), or an access of a
hart of the Plovdy cluster that waits for the host (R390). -/
inductive HostAccess where
  | read (fn pa length : Nat) (cached exclusive : Bool)
  | write (fn pa : Nat) (bytes : List (Option Byte))
  | atomic (fn : Nat) (op : HostAtomic) (pa size : Nat) (operand compare : DWord)
  | load (fn pa length : Nat)
  | store (fn pa : Nat) (bytes : List (Option Byte))
  | amo (fn : Nat) (op : HostAtomic) (pa size : Nat) (operand compare : DWord)
  deriving DecidableEq, Repr

/-- The host's accesses that wait, the answers given to its reads and atomics (`none` is a CXL.mem error), and the functions to whose MSI-X vector
0 a message has been sent, in order (R384, R390). -/
structure HostPort where
  waiting : List HostAccess
  answers : List (Nat × Option (List Byte))
  msix : List Nat
  deriving DecidableEq, Repr

/-- The hub (R259, R322): tables, host queues, fault store and what fault ids hold, invalidations, save images, identifiers, and for each
command processor the queue from which it last took a packet (R268). -/
structure Hub where
  fns : Map FnRecord
  ctxs : Map CtxRecord
  queues : Map HostQueue
  mappings : Map MappingEntry
  bias : Map BiasEntry
  dispatches : Map Dispatch
  nextDisp : Nat
  records : List FaultRecord
  held : List HeldFault
  invs : List Invalidation
  images : List GangImage
  dieTlb : Map (List TlbEntry)
  walks : Map (List WalkEntry)
  nextGang : Nat
  nextCmd : Nat
  nextInv : Nat
  nextImage : Nat
  turns : Map Nat
  deriving DecidableEq, Repr

/-! ### The machine -/

/-- Which agent moves: the team whose instruction issues next, or a step of another agent. -/
inductive Mover where
  | team (team : Nat)
  | agent (i : Instr)
  deriving DecidableEq, Repr

/-- A turn of the agenda: the ticks of the reference counter and the nominal cycles that pass (R15), and the mover. -/
structure Turn where
  ticks : Nat
  cycles : Nat
  mover : Mover
  deriving DecidableEq, Repr

/-- The state of the device. `agenda`, `cur` and `free` are the model's own (log 1, log 2): which agents move next, the team whose
turn it is, and the number of free values used. Teams are keyed by 16·gang + TEAMID. -/
structure State where
  agenda : List Turn
  cur : Nat
  free : Nat
  tick : Nat
  cycles : Nat
  teams : Map Team
  gangs : Map Gang
  cores : Map Core
  slices : Map Slice
  mem : Mem
  hub : Hub
  net : Net
  port : HostPort
  platform : Platform
  deriving DecidableEq, Repr

/-- Why a step stops without a next state. -/
inductive Fault where
  /-- Raised by `step` when a turn of the agenda names a team that the device does not hold: no team, no program counter (R21).
  Safe: the run goes no further. -/
  | noSuchTeam
  deriving DecidableEq, Repr

/-- Why an instruction has no meaning in the model. -/
inductive Refusal where
  /-- Raised by an arm of `exec` whose instruction has no meaning yet. Safe: the run goes no further. -/
  | notModelled (mnemonic : String)
  deriving DecidableEq, Repr

/-! ### Reset -/

/-- No team: what an identifier that names no team reads as. Its registers hold what a team starts with (R24). -/
def TeamRegs.zero : TeamRegs where
  pc := 0
  v := []
  s := []
  k := []
  em := 0
  q := []
  fflags := 0
  uhandler := 0
  ucause := 0
  uepc := 0
  uval := 0
  uien := 0

/-- The team that an unused identifier reads as. -/
def Team.none : Team where
  regs := .zero
  gang := 0
  teamid := 0
  slot := 0
  pipe := 0
  status := .absent
  h := false
  windows := []
  frozen := []
  deferred := []
  held := []
  async := []
  starve := 0
  forced := false
  yieldTo := []
  stop := false
  tcause := 0
  tepc := 0
  tval := 0
  shadow := Option.none
  shadowH := false
  stalled := Option.none
  stuck := Option.none
  fresh := (0, 0)
  bad := []
  cyc := 0

/-- A barrier that is not initialised (R339). -/
def Barrier.none : Barrier := ⟨false, 0, 0, 0, 0, 0, 0, true, (0, 0)⟩

/-- A named queue that is not initialised (R26). -/
def NamedQueue.none : NamedQueue := ⟨false, 0, 0, 0, 0, 0, 0⟩

/-- The gang that an unused identifier reads as. -/
def Gang.none : Gang where
  state := .retired
  dispatch := 0
  glin := 0
  x := 0
  y := 0
  z := 0
  core := 0
  nteams := 0
  tw := 32
  vregs := 16
  scratch := 0
  persistent := false
  blocks := []
  scratchpad := []
  barriers := []
  queues := []
  shadow := Option.none
  isSealed := false
  rollbacks := 0
  sampled := false
  audit := 0
  fetches := []
  withdrawn := []
  poison := []
  heldFault := Option.none
  lapsed := []
  work := 0
  lines := 0
  badSync := []
  rolling := false
  replay := false
  written := []

/-- The dispatch that an unused number reads as. -/
def Dispatch.none : Dispatch where
  valid := false
  queue := 0
  ctx := 0
  packet := 0
  signal := 0
  entry := 0
  shape := 0
  arg := 0
  joinVA := 0
  dimX := 0
  dimY := 0
  dimZ := 0
  key := 0
  parallel := false
  fetchable := false
  rollback := false
  auditable := false
  cont := false
  next := 0
  live := 0
  retired := 0
  unreported := []
  audits := []
  failed := Option.none
  contFailed := Option.none
  work := 0
  lines := 0
  mark := 0
  completing := false
  conts := 0
  parent := 0
  slot := 0

/-- The configuration of an epilogue before the first EPCFG of an ownership (R313). -/
def EpConfig.first : EpConfig := ⟨0, 0, 0, false, true, 0, false, false, 0, [], [], 0, 0⟩

/-- A matrix engine at the start of an ownership (R296). -/
def Engine.first (owner : Option Nat) : Engine where
  owner := owner
  tiles := []
  states := []
  head := 0
  scales := []
  cfg := .first
  cfgIssued := .first
  captured := []
  passed := []
  drain := Option.none
  drained := 0
  outq := []
  emulating := Option.none
  bad := []

/-- A core after reset: its L1 and TLB empty, its engines free (R13, R322). -/
def Core.first : Core := ⟨[], [], 0, 0, .first Option.none, [], [], [], [], false⟩

/-- An operator slot record after reset (R322). -/
def OpSlot.none : OpSlot := ⟨false, 0, 0, 0, 1, 0, 1, false, false, Option.none, Option.none⟩

/-- A slice after reset: every plot in cache mode, no operator slot assigned, no bed (R13). -/
def Slice.first : Slice := ⟨[], [], [], [], [], 0, [], Option.none⟩

/-- A line that no slice copy holds. -/
def SliceLine.none : SliceLine := ⟨0, 0, [], false, 0, 0⟩

/-- A directory entry of a line that no proxy slice holds. -/
def DirEntry.none : DirEntry := ⟨.i, [], 0⟩

/-- A function record after reset (R322, R331): every field zero, fault ids counted from 1 (R273). -/
def FnRecord.none : FnRecord := ⟨false, 0, 0, 0, 0, false, 0, 0, 0, Option.none, false, 1, 0, [], [], []⟩

/-- A context record after reset (R322). -/
def CtxRecord.none : CtxRecord := ⟨false, false, 0, 0, 0, 0, 0, 0, 0, 0⟩

/-- A host queue record after reset (R322). -/
def HostQueue.none : HostQueue := ⟨false, false, 0, 4, 0, 0, 0, 0, 0, Option.none, 0, [], Option.none, false, []⟩

/-- A scratchpad mapping entry after reset (R322). -/
def MappingEntry.none : MappingEntry := ⟨false, false, 0, 0, 0, 1, 0⟩

/-- A bias entry after reset: not exposed, device bias (R335). -/
def BiasEntry.none : BiasEntry := ⟨false, false, false, false⟩

/-- A connection that system software has not opened (R285). -/
def Conn.none : Conn := ⟨false, false, 0, [], 0, 0, [], [], [], [], false, false, []⟩

/-- An island after reset (R392). -/
def Island.none : Island := ⟨0, 0, false⟩

/-- An event counter that no gang has selected (R356). -/
def EventCounter.none : EventCounter := ⟨Option.none, 0, 0⟩

/-- The device right after reset (R13, R322, and the reset columns of the registers): no gang, every plot in cache mode, every cache
and table empty but for function 0, which is valid (R331); values that the manual does not give are those of log 9 and log 10. -/
def State.reset : State where
  agenda := []
  cur := 0
  free := 0
  tick := 0
  cycles := 0
  teams := []
  gangs := []
  cores := []
  slices := []
  mem := ⟨[], [], [], [], [], [], [], [], []⟩
  hub := {
    fns := [(0, { FnRecord.none with valid := true })]
    ctxs := []
    queues := []
    mappings := []
    bias := []
    dispatches := []
    nextDisp := 1
    records := []
    held := []
    invs := []
    images := []
    dieTlb := []
    walks := []
    nextGang := 0
    nextCmd := 0
    nextInv := 0
    nextImage := 0
    turns := [] }
  net := ⟨[], [], [], [], 0⟩
  port := ⟨[], [], []⟩
  platform := ⟨0, true, false, Option.none, [], [], [], Option.none, false, [], [], [], []⟩

end Sys2Proof.Machine
end

