-- ==== Sys2Proof/Machine/Base.lean ====
section
/-! DEFINITION. Reading and replacing the parts of the state: teams, gangs, dispatches, cores, slices and records; the registers of a
team, with the hard-wired s0; masks and active lanes (R22, R23, R61, R97). -/
namespace Sys2Proof.Machine

/-- The outcome of a step. -/
abbrev Out := Host.Outcome State Fault Refusal

/-! ### Parts of the state -/

/-- The team with an identifier. -/
def State.teamAt (s : State) (u : Nat) : Team := s.teams.get .none u

/-- The state with a team replaced. -/
def State.setTeamAt (s : State) (u : Nat) (t : Team) : State := { s with teams := s.teams.set u t }

/-- The team whose instruction issues. -/
def State.team (s : State) : Team := s.teamAt s.cur

/-- The state with the issuing team replaced. -/
def State.setTeam (s : State) (t : Team) : State := s.setTeamAt s.cur t

/-- The state with a team changed. -/
def State.mapTeam (s : State) (u : Nat) (f : Team → Team) : State := s.setTeamAt u (f (s.teamAt u))

/-- The gang with an identifier. -/
def State.gangAt (s : State) (g : Nat) : Gang := s.gangs.get .none g

/-- The state with a gang changed. -/
def State.mapGang (s : State) (g : Nat) (f : Gang → Gang) : State := { s with gangs := s.gangs.set g (f (s.gangAt g)) }

/-- The gang of the issuing team. -/
def State.gang (s : State) : Gang := s.gangAt s.team.gang

/-- The dispatch with a number. -/
def State.dispatchAt (s : State) (d : Nat) : Dispatch := s.hub.dispatches.get .none d

/-- The state with a dispatch changed. -/
def State.mapDispatch (s : State) (d : Nat) (f : Dispatch → Dispatch) : State :=
  { s with hub := { s.hub with dispatches := s.hub.dispatches.set d (f (s.dispatchAt d)) } }

/-- The dispatch of a team. -/
def State.dispatchOf (s : State) (u : Nat) : Dispatch := s.dispatchAt (s.gangAt (s.teamAt u).gang).dispatch

/-- The core with a number. -/
def State.coreAt (s : State) (c : Nat) : Core := s.cores.get .first c

/-- The state with a core changed. -/
def State.mapCore (s : State) (c : Nat) (f : Core → Core) : State := { s with cores := s.cores.set c (f (s.coreAt c)) }

/-- The slice with a number. -/
def State.sliceAt (s : State) (c : Nat) : Slice := s.slices.get .first c

/-- The state with a slice changed. -/
def State.mapSlice (s : State) (c : Nat) (f : Slice → Slice) : State := { s with slices := s.slices.set c (f (s.sliceAt c)) }

/-- The context record with a number. -/
def State.ctxAt (s : State) (c : Nat) : CtxRecord := s.hub.ctxs.get .none c

/-- The state with a context record changed. -/
def State.mapCtx (s : State) (c : Nat) (f : CtxRecord → CtxRecord) : State :=
  { s with hub := { s.hub with ctxs := s.hub.ctxs.set c (f (s.ctxAt c)) } }

/-- The function record with a number. -/
def State.fnAt (s : State) (f : Nat) : FnRecord := s.hub.fns.get .none f

/-- The state with a function record changed. -/
def State.mapFn (s : State) (f : Nat) (g : FnRecord → FnRecord) : State :=
  { s with hub := { s.hub with fns := s.hub.fns.set f (g (s.fnAt f)) } }

/-- The host queue with a number, 512·f + queue. -/
def State.queueAt (s : State) (q : Nat) : HostQueue := s.hub.queues.get .none q

/-- The state with a host queue changed. -/
def State.mapQueue (s : State) (q : Nat) (f : HostQueue → HostQueue) : State :=
  { s with hub := { s.hub with queues := s.hub.queues.set q (f (s.queueAt q)) } }

/-- The state with the memories changed. -/
def State.mapMem (s : State) (f : Mem → Mem) : State := { s with mem := f s.mem }

/-- The state with the hub changed. -/
def State.mapHub (s : State) (f : Hub → Hub) : State := { s with hub := f s.hub }

/-- The state with the network engine changed. -/
def State.mapNet (s : State) (f : Net → Net) : State := { s with net := f s.net }

/-- The connection with a number. -/
def State.connAt (s : State) (c : Nat) : Conn := s.net.conns.get .none c

/-- The state with a connection changed. -/
def State.mapConn (s : State) (c : Nat) (f : Conn → Conn) : State :=
  s.mapNet (fun n => { n with conns := n.conns.set c (f (s.connAt c)) })

/-- The state with the platform changed. -/
def State.mapPlatform (s : State) (f : Platform → Platform) : State := { s with platform := f s.platform }

/-- A store refused by R330 is counted in the function record's refused count. -/
def State.refuse (s : State) (f : Nat) : State := s.mapFn f (fun r => { r with refused := r.refused + 1 })

/-- A source of the Plovdy cluster's interrupt controller raised (R390). -/
def State.raise (s : State) (source : Nat) : State := s.mapPlatform (fun p => { p with raised := p.raised ++ [source] })

/-- An entry of the management block's event log, which raises source 66 (R390). -/
def State.logEvent (s : State) (e : LogEvent) : State := (s.mapPlatform (fun p => { p with log := p.log ++ [e] })).raise 66

/-- The context of a team. -/
def State.ctxOf (s : State) (u : Nat) : Nat := (s.dispatchOf u).ctx

/-- The function of a context. -/
def State.fnOf (s : State) (ctx : Nat) : Nat := (s.ctxAt ctx).vfid

/-- The core of a team. -/
def State.coreOf (s : State) (u : Nat) : Nat := (s.gangAt (s.teamAt u).gang).core

/-- The identifiers of the teams of a gang, in ascending TEAMID. -/
def State.teamsOf (s : State) (g : Nat) : List Nat := (List.range (s.gangAt g).nteams).map (fun i => 16 * g + i)

/-- The identifiers of the resident gangs of a core. -/
def State.residents (s : State) (c : Nat) : List Nat :=
  (s.gangs.filter (fun p => p.2.state = .resident && p.2.core = c)).map (fun p => p.1)

/-- The plots a context may still take (R331). -/
def CtxRecord.quota (c : CtxRecord) : Nat := c.qlim - c.plots

/-- The next free value and the state that has used it (log 2). -/
def State.takeFree (s : State) : DWord × State := (Config.freeValue s.free, { s with free := s.free + 1 })

/-- An event counted in the counters that a gang holds for it (R356). -/
def State.count (s : State) (g ev n : Nat) : State :=
  let c := (s.gangAt g).core
  if (s.coreAt c).counters.any (fun p => p.2.gang = some g && p.2.event = ev) then
    s.mapCore c (fun k => { k with counters := k.counters.map (fun p =>
      if p.2.gang = some g && p.2.event = ev then (p.1, { p.2 with value := p.2.value + BitVec.ofNat 48 n }) else p) })
  else s

/-- A change made with another team as the issuing one. -/
def State.asTeam (s : State) (u : Nat) (f : State → State) : State := { f { s with cur := u } with cur := s.cur }

/-! ### Registers -/

/-- s(n): s0 reads as zero (R97). -/
def TeamRegs.sreg (r : TeamRegs) (n : Nat) : DWord := if n = 0 then 0 else r.s.get 0 n

/-- s(n) ← x: writes to s0 are discarded (R97). -/
def TeamRegs.setS (r : TeamRegs) (n : Nat) (x : DWord) : TeamRegs := if n = 0 then r else { r with s := r.s.put 0 n x }

/-- v(n)[l]. -/
def TeamRegs.lane (r : TeamRegs) (n l : Nat) : Word32 := (r.v.get [] n).getD l 0

/-- v(n)[l] ← x for the lanes below TW that the function gives a value. -/
def TeamRegs.setLanes (r : TeamRegs) (tw n : Nat) (f : Nat → Option Word32) : TeamRegs :=
  { r with v := r.v.set n ((List.range tw).map (fun l => (f l).getD (r.lane n l))) }

/-- k(n). -/
def TeamRegs.kreg (r : TeamRegs) (n : Nat) : Mask := r.k.get 0 n

/-- The lanes of a team of width TW. -/
def laneMask (tw : Nat) : Mask := BitVec.ofNat 1024 (2 ^ tw - 1)

/-- k(n) ← x: the words above TW/32 are written as zero (R22, R159). -/
def TeamRegs.setK (r : TeamRegs) (tw n : Nat) (x : Mask) : TeamRegs := { r with k := r.k.put 0 n (x &&& laneMask tw) }

/-- em ← x (R22). -/
def TeamRegs.setEm (r : TeamRegs) (tw : Nat) (x : Mask) : TeamRegs := { r with em := x &&& laneMask tw }

/-- The summary word of a mask: bit w is set exactly when word w is not zero (R22). -/
def summary (m : Mask) : Word32 :=
  BitVec.ofNat 32 ((List.range 32).foldl (fun n w => if m.extractLsb' (32 * w) 32 = 0#32 then n else n + 2 ^ w) 0)

/-- One register write of a result. -/
def TeamRegs.writeOne (r : TeamRegs) (tw : Nat) (w : RegWrite) : TeamRegs :=
  match w with
  | .vec n xs => r.setLanes tw n (fun l => xs.getD l none)
  | .mask n x => r.setK tw n x
  | .scal n x => r.setS n x

/-- The register writes of a result, in order. -/
def TeamRegs.writeAll (r : TeamRegs) (tw : Nat) (ws : List RegWrite) : TeamRegs := ws.foldl (fun r w => r.writeOne tw w) r

/-- Whether a lane is active for an instruction masked by `mask`, or by em alone (R61). -/
def TeamRegs.active (r : TeamRegs) (tw : Nat) (mask : Option (BitVec 3)) (l : Nat) : Bool :=
  decide (l < tw) && r.em.getLsbD l && (match mask with | none => true | some k => (r.kreg k.toNat).getLsbD l)

/-- The active lanes in ascending order. -/
def TeamRegs.activeLanes (r : TeamRegs) (tw : Nat) (mask : Option (BitVec 3)) : List Nat :=
  (List.range tw).filter (fun l => r.active tw mask l)

/-- The TW of the issuing team. -/
def State.tw (s : State) : Nat := s.gang.tw

/-- The registers of the issuing team. -/
def State.regs (s : State) : TeamRegs := s.team.regs

/-- The state with the registers of the issuing team replaced. -/
def State.setRegs (s : State) (r : TeamRegs) : State := s.setTeam { s.team with regs := r }

/-- s(n) of the issuing team. -/
def State.sreg (s : State) (n : Nat) : DWord := s.regs.sreg n

/-- A team whose registers named by a test are no longer poisoned (R175). -/
def Team.cleared (t : Team) (p : BadReg → Bool) : Team := { t with bad := t.bad.filter (fun b => !p b) }

/-- Registers of the issuing team written: the words that a test names are written whole and lose their poison (R175). -/
def State.putRegs (s : State) (r : TeamRegs) (p : BadReg → Bool) : State := s.setTeam ({ s.team with regs := r }.cleared p)

/-- s(n) ← x in the issuing team. -/
def State.setS (s : State) (n : Nat) (x : DWord) : State := s.putRegs (s.regs.setS n x) (fun b => decide (b = BadReg.scalar n))

/-- k(n) ← m in the issuing team. -/
def State.setK (s : State) (n : Nat) (m : Mask) : State := s.putRegs (s.regs.setK s.tw n m) (fun b => decide (b = BadReg.mask n))

/-- Whether a result writes a poisoned register word whole (R175). -/
def RegWrite.covers (w : RegWrite) (b : BadReg) : Bool :=
  match w, b with
  | .vec n lanes, .vector m l => n = m && (lanes.getD l none).isSome
  | .mask n _, .mask m => n = m
  | .scal n _, .scalar m => n = m
  | _, _ => false

/-- A team with pending bits of UIEN set in a cycle (R106, R134). -/
def Team.pend (t : Team) (cycle : Nat) (bits : BitVec 11) : Team :=
  { t with
    regs := { t.regs with uien := t.regs.uien ||| bits }
    fresh := (cycle, if t.fresh.1 = cycle then t.fresh.2 ||| bits else bits) }

/-- Flags ORed into FFLAGS, setting UIEN.NVP where NV is raised (R82, R106). -/
def TeamRegs.raise (r : TeamRegs) (f : BitVec 5) : TeamRegs :=
  { r with fflags := r.fflags ||| f, uien := if f.getLsbD 4 then r.uien ||| 0x400 else r.uien }

/-! ### The local window -/

/-- W, the base of the local window (R102). -/
def windowBase : Nat := 0x1FFFFF000000000

/-- Whether an address lies in the local window. -/
def inWindow (a : Nat) : Bool := decide (windowBase ≤ a) && decide (a < 2 ^ 57)

/-- The offset of the register aperture in the local window (R102). -/
def apertureV : Nat := 0x800000000

/-- The offset of the scalar registers in the local window (R102). -/
def apertureS : Nat := 0x800100000

end Sys2Proof.Machine
end

