-- ==== Sys2Proof/Machine/HubRegs.lean ====
section
/-! DEFINITION. Hub register space as it reads (R330 to R337, R265, R385, R391, R392, R394), and the turns that perform a device store to
it. -/
namespace Sys2Proof.Machine

/-- The device identity public key, 1,312 bytes (R394). -/
def identityKeyBytes : List Byte := (List.range 1312).map Config.identityKey

/-- A field of a doubleword: the low `n` bits of `x` placed at bit `lo`. -/
def field (lo n x : Nat) : DWord := BitVec.ofNat 64 (x % 2 ^ n * 2 ^ lo)

/-- A one-bit field. -/
def flag (lo : Nat) (b : Bool) : DWord := if b then BitVec.ofNat 64 (2 ^ lo) else 0

/-- A field of an entry or record. -/
def bitsOf (x : DWord) (lo n : Nat) : Nat := x.toNat / 2 ^ lo % 2 ^ n

/-- Doubleword `i` of a function record (R331). -/
def FnRecord.read (r : FnRecord) (i : Nat) : DWord :=
  match i with
  | 0 => flag 63 r.valid ||| field 57 4 r.flog.toNat ||| field 0 57 r.fring.toNat
  | 1 => field 32 32 r.refused.toNat ||| field 0 32 r.overflow.toNat
  | 3 => flag 63 r.resumeBusy ||| field 0 2 r.resumeCode.toNat
  | 4 => r.iva
  | 5 => r.ictl
  | 7 => flag 63 r.invBusy.isSome ||| flag 0 r.invRefused
  | _ => 0

/-- Doubleword `i` of a context record (R331). -/
def CtxRecord.read (r : CtxRecord) (i : Nat) : DWord :=
  match i with
  | 0 => flag 63 r.valid ||| flag 62 r.priv ||| field 56 6 r.vfid ||| field 0 40 r.root
  | 1 => field 0 16 r.qlim ||| field 16 16 r.quota
  | 2 => field 0 16 r.cbase ||| field 16 17 r.ccnt
  | 3 => field 0 12 r.nbase ||| field 12 13 r.ncnt
  | _ => 0

/-- Doubleword `i` of a host queue record (R331, R374, R376). -/
def HostQueue.read (q : HostQueue) (i : Nat) : DWord :=
  match i with
  | 0 => (q.ring &&& 0x1FFFFFFFFFFF000#64) ||| field 0 4 (q.k - 4)
  | 1 => field 0 2 q.prio.toNat ||| flag 2 q.suspended ||| flag 3 q.valid ||| flag 4 q.torn.isSome ||| field 8 5 q.audit.toNat
      ||| field 16 16 q.ctx ||| field 32 32 q.watchdog.toNat
  | 2 => field 0 64 q.readIdx
  | _ => 0

/-- The installed operator of a slot; none while an installation runs (R403). -/
def OpSlot.installed (o : OpSlot) : Option Operator := if o.installing then Option.none else o.op

/-- Doubleword `i` of an operator slot record (R333). -/
def OpSlot.read (o : OpSlot) (i : Nat) : DWord :=
  match i with
  | 0 => flag 63 o.valid ||| flag 62 o.installed.isSome ||| flag 61 (o.installed.any (fun p => p.isSealed)) ||| field 48 8 o.plots.toNat
      ||| field 32 16 o.ctx
  | 1 => field 0 27 o.applyFirst ||| field 32 8 (o.applyPages - 1)
  | 2 => field 0 27 o.resultFirst ||| field 32 8 (o.resultPages - 1)
  | _ => 0

/-- Doubleword `i` of a bed record (R334). -/
def bedRead (b : Option Bed) (i : Nat) : DWord :=
  match b, i with
  | some b, 0 => flag 63 true ||| field 48 8 b.plots.toNat ||| field 32 16 b.ctx ||| field 16 8 b.seq.toNat
  | _, _ => 0

/-- Doubleword `i` of a scratchpad mapping entry (R332). -/
def MappingEntry.read (m : MappingEntry) (i : Nat) : DWord :=
  match i with
  | 0 => flag 63 m.valid ||| field 12 45 (m.va / 4096)
  | 1 => field 0 32 m.dispatch ||| field 32 32 m.glin
  | 2 => field 0 7 (m.pages - 1) ||| field 20 19 m.offset
  | _ => 0

/-- The gangs of a dispatch. -/
def Dispatch.count (d : Dispatch) : Nat := d.dimX * d.dimY * d.dimZ

/-- The state field of a dispatch entry (R337): 0 admitting, 1 all admitted, 2 retiring, 3 held for audit. -/
def Dispatch.stateCode (d : Dispatch) : Nat :=
  if d.failed.isNone && d.next < d.count then 0
  else if d.live ≠ 0 then 1
  else if d.audits.isEmpty then 2 else 3

/-- The command processor that serves a queue (R268; log 17). -/
def cpOf (queue : Nat) : Nat := queue % 8

/-- Doubleword `i` of a dispatch entry (R337). -/
def Dispatch.read (d : Dispatch) (dispid i : Nat) : DWord :=
  match i with
  | 0 => flag 63 d.valid ||| field 61 2 d.stateCode ||| field 59 2 d.mark.toNat ||| flag 56 d.fetchable ||| flag 57 d.rollback
      ||| flag 58 d.auditable ||| field 54 2 (if d.parallel then 1 else 2) ||| flag 53 d.cont ||| field 32 9 (d.queue % 512)
      ||| field 0 32 dispid
  | 1 => field 32 32 d.key.toNat ||| field 0 32 d.next
  | 2 => field 0 64 d.count
  | _ => 0

/-- The bias entry's byte (R335). -/
def BiasEntry.read (b : BiasEntry) : Nat :=
  (if b.exposed then 1 else 0) + (if b.host then 2 else 0) + (if b.busy then 4 else 0)

/-- The point in force of an island (R392): the slower of the request and the management limit. -/
def Island.current (i : Island) : Nat := max (min i.request.toNat 2) i.limit.toNat

/-- The control register of an island (R392). -/
def Island.read (i : Island) : DWord :=
  flag 17 (decide (min i.request.toNat 2 < i.limit.toNat)) ||| flag 16 i.gated ||| field 8 2 i.current ||| field 0 2 i.request.toNat

/-- Eight bytes of a list as a doubleword, zeros beyond its end. -/
def dwordOfBytes (bs : List Byte) (i : Nat) : DWord := BitVec.ofNat 64 (leNat ((bs.drop (8 * i)).take 8))

/-- The slice set in force (R336). -/
def FnRecord.maskOf (r : FnRecord) (i : Nat) : BitVec 96 := r.sets.get 0 i

/-- The doubleword of hub register space at a multiple of 8. Offsets that no rule names read as zero (log 18). -/
def State.hubDword (s : State) (off : Nat) : DWord :=
  if off < 0x40000 then field 0 64 (s.queueAt (512 * (off / 4096) + off % 4096 / 8)).kick
  else if off < 0x10000000 then 0
  else if off < 0x10001000 then (s.fnAt ((off - 0x10000000) / 64)).read (off % 64 / 8)
  else if off < 0x11000000 then 0
  else if off < 0x11400000 then (s.ctxAt ((off - 0x11000000) / 64)).read (off % 64 / 8)
  else if off < 0x12000000 then 0
  else if off < 0x12200000 then (s.queueAt ((off - 0x12000000) / 64)).read (off % 64 / 8)
  else if off < 0x13000000 then 0
  else if off < 0x13006000 then
    ((s.sliceAt ((off - 0x13000000) / 256)).slots.get .none ((off - 0x13000000) / 32 % 8)).read (off % 32 / 8)
  else if off < 0x13100000 then 0
  else if off < 0x13103000 then bedRead ((s.sliceAt ((off - 0x13100000) / 128)).beds.find ((off - 0x13100000) / 16 % 8)) (off % 16 / 8)
  else if off < 0x14000000 then 0
  else if off < 0x1C000000 then (s.hub.mappings.get .none ((off - 0x14000000) / 32)).read (off % 32 / 8)
  else if off < 0x1C020000 then
    match s.hub.dispatches.find? (fun p => p.2.valid && cpOf p.2.queue = (off - 0x1C000000) / 16384
        && p.2.slot = (off - 0x1C000000) / 64 % 256) with
    | some p => p.2.read p.1 (off % 64 / 8)
    | none => 0
  else if off < 0x1D000000 then 0
  else if off < 0x1D024000 then
    BitVec.ofNat 64 ((List.range 8).foldl (fun n i => n + (s.hub.bias.get .none (off - 0x1D000000 + i)).read * 256 ^ i) 0)
  else if off < 0x1E000000 then 0
  else if off < 0x1E008000 then
    let r := s.fnAt ((off - 0x1E000000) / 512)
    let b := off % 512
    if b < 128 then r.seeds.get 0 (b / 8)
    else if b < 384 then
      if b % 16 = 0 then field 0 64 (r.maskOf ((b - 128) / 16)).toNat else field 0 32 ((r.maskOf ((b - 128) / 16)).toNat / 2 ^ 64)
    else 0
  else if off < 0x1F000000 then 0
  else if off < 0x1F001000 then (s.platform.islands.get .none ((off - 0x1F000000) / 8)).read
  else if off = 0x1F100000 then s.platform.health
  else if 0x1F200000 ≤ off && off < 0x1F200020 then dwordOfBytes s.platform.nonce ((off - 0x1F200000) / 8)
  else if off = 0x1F200028 then flag 0 s.platform.done ||| flag 1 s.platform.report.isSome
  else if 0x1F201000 ≤ off && off < 0x1F201520 then dwordOfBytes identityKeyBytes ((off - 0x1F201000) / 8)
  else 0

/-- The bytes of hub register space. -/
def State.hubBytes (s : State) (off n : Nat) : List Byte :=
  (List.range n).map (fun i => (s.hubDword ((off + i) / 8 * 8)).extractLsb' (8 * ((off + i) % 8)) 8)

/-- Whether a context may write the host queue and function records of a function (R330). -/
def State.mayWriteFn (s : State) (ctx f : Nat) : Bool := (s.ctxAt ctx).priv && (s.ctxAt ctx).vfid = f

/-- The steps of the hub that a store of a context to the bytes `m` of a doubleword of hub register space performs (R265, R330, R331; log 19). -/
def State.hubSteps (s : State) (ctx off : Nat) (v : DWord) (m : Byte) : List Instr :=
  let plain : Instr := .mgmtRegisterWrite (.context ctx) off ⟨v, m⟩
  if m ≠ 0xFF then [plain]
  else if off < 0x40000 then [.kickRegisterWrite (512 * (off / 4096) + off % 4096 / 8) v]
  else if 0x10000000 ≤ off && off < 0x10001000 then
    let f := (off - 0x10000000) / 64
    if !s.mayWriteFn ctx f then [plain]
    else if off % 64 = 16 then
      if v.getLsbD 32 then [.mgmtResumeKill f (bitsOf v 0 32)] else [.mgmtResume f (bitsOf v 0 32)]
    else if off % 64 = 48 then
      match bitsOf v 0 2 with
      | 0 => [.icmdVa f]
      | 1 => [.icmdCtx f]
      | 2 => [.icmdAll f]
      | _ => [plain]
    else [plain]
  else [plain]

/-- A doubleword with the bytes that `m` names taken from another (log 19). -/
def mergeBytes (old v : DWord) (m : Byte) : DWord :=
  if m = 0xFF then v
  else BitVec.ofNat 64 (leNat ((List.range 8).map (fun i => (if m.getLsbD i then v else old).extractLsb' (8 * i) 8)))

/-- The part of a store to `off` that lies in the doubleword at a multiple of 8: its bytes in their places, and which they are. -/
def hubPiece (at_ off : Nat) (bs : List Byte) : DWord × Byte :=
  (BitVec.ofNat 64 (leNat ((List.range 8).map (fun i => if off ≤ at_ + i then bs.getD (at_ + i - off) 0 else 0))),
   BitVec.ofNat 8 ((List.range 8).foldl (fun n i => if off ≤ at_ + i && at_ + i < off + bs.length then n + 2 ^ i else n) 0))

/-- The turns that perform a device store to hub register space, in ascending order of its doublewords. -/
def State.hubTurns (s : State) (ctx off : Nat) (bs : List Byte) : List Turn :=
  let first := off / 8
  let n := (off + bs.length + 7) / 8 - first
  (List.range n).flatMap (fun i =>
    let p := hubPiece (8 * (first + i)) off bs
    (s.hubSteps ctx (8 * (first + i)) p.1 p.2).map (fun e => ⟨0, 0, .agent e⟩))

end Sys2Proof.Machine
end

