-- ==== Sys2Proof/Machine/Homes.lean ====
section
/-! DEFINITION. Physical memory in home order: ranges and homes, the copies that slices hold, their places in the plots, and the home
directory (R6, R12, R161 to R163, R165, R173 to R175, R219, R220). -/
namespace Sys2Proof.Machine

/-! ### Address ranges (R162, R163) -/

/-- The end of bonded DRAM. -/
def dramTop : Nat := 0x4800000000

/-- The base of hub register space. -/
def hubBase : Nat := 0x4000000000000

/-- The end of hub register space. -/
def hubTop : Nat := 0x4000100000000

/-- The base of host memory. -/
def hostBase : Nat := 0x8000000000000

/-- The ranges of physical addresses (R162). -/
inductive Range where
  | dram | hub | host | nothing
  deriving DecidableEq, Repr

/-- The range of a physical address (R162). -/
def rangeOf (pa : Nat) : Range :=
  if pa < dramTop then .dram
  else if hubBase ≤ pa && pa < hubTop then .hub
  else if hostBase ≤ pa && pa < 2 * hostBase then .host
  else .nothing

/-- What home(pa) of R163 returns: a channel, the byte within it and a home slice, a home slice alone, or the hub. -/
inductive Home where
  | dram (channel byte slice : Nat)
  | host (slice : Nat)
  | hub
  deriving DecidableEq, Repr

/-- The channel of a DRAM address (R163, R238). -/
def channelOf (pa : Nat) : Nat := pa / 4096 % 192

/-- home(pa) of R163, as R238 uses it. -/
def homeOf (pa : Nat) : Home :=
  if pa < dramTop then .dram (channelOf pa) (pa / 4096 / 192 * 4096 + pa % 4096) (channelOf pa / 2)
  else if hostBase ≤ pa then .host (pa / 4096 % 96)
  else .hub

/-- The home slice of a DRAM or host address; the hub has the number 127, which no slice has. -/
def homeSlice (pa : Nat) : Nat :=
  match homeOf pa with
  | .dram _ _ s => s
  | .host s => s
  | .hub => 127

/-- The proxy slice of a die for a home slice, which on the home's own die is the home slice; the Plovdy cluster is die 4 (R219, R390). -/
def proxySlice (home die : Nat) : Nat := 24 * die + home % 24

/-- The die of a slice; the Plovdy cluster's cache is of die 4 (R9, R390). -/
def sliceDie (slice : Nat) : Nat := slice / 24

/-- The die of a core (R9). -/
def dieOf (core : Nat) : Nat := core / 48

/-- Whether a slice is one of the proxy slices of a line and not its home (R219). -/
def isProxy (slice line : Nat) : Bool :=
  let h := homeSlice (128 * line)
  slice ≠ h && (List.range 5).any (fun d => slice = proxySlice h d && d ≠ sliceDie h)

/-- The slices that may hold a line: for each die its proxy slice, which on the home's die is the home slice (R219). -/
def slicesFor (line : Nat) : List Nat := (List.range 5).map (proxySlice (homeSlice (128 * line)))

/-- The mask of the words that a byte range names in its line. -/
def wordMask (pa n : Nat) : Word32 :=
  (List.range ((pa % 128 + n + 3) / 4 - pa % 128 / 4)).foldl (fun (m : Word32) i => m ||| (1#32 <<< (pa % 128 / 4 + i))) 0

/-! ### Copies and words (R20, R173, R220) -/

/-- The key of a slice's copy of a line; the 120 slices and cluster parts are numbered below 128. -/
def copyKey (line slice : Nat) : Nat := 128 * line + slice % 128

/-- A slice's copy of a line. -/
def Mem.copy (m : Mem) (line slice : Nat) : SliceLine := m.copies.get .none (copyKey line slice)

/-- The memory with a slice's copy replaced; a copy that holds nothing, and is not pinned, is not listed. -/
def Mem.setCopy (m : Mem) (line slice : Nat) (c : SliceLine) : Mem :=
  { m with copies := if c.valid = 0#32 && !c.pinned && c.data.isEmpty then m.copies.erase (copyKey line slice) else m.copies.set (copyKey line slice) c }

/-- The directory entry of a line. -/
def Mem.dirAt (m : Mem) (line : Nat) : DirEntry := m.dir.get .none line

/-- The state that a directory entry's owners and sharers stand for (R220). -/
def dirStateOf (owners : Map Nat) (sharers : BitVec 5) : DirState :=
  if owners.isEmpty then (if sharers = 0 then .i else .s) else if sharers = 0 then .m else .o

/-- The memory with the owners and sharers of a line replaced. -/
def Mem.setDir (m : Mem) (line : Nat) (owners : Map Nat) (sharers : BitVec 5) : Mem :=
  { m with dir := m.dir.put .none line ⟨dirStateOf owners sharers, owners, sharers⟩ }

/-- The bit of a slice's die in a sharer mask. -/
def dieBit (slice : Nat) : BitVec 5 := 1#5 <<< sliceDie slice

/-- The word of the backing memory at word address `pw`. -/
def Mem.backing (m : Mem) (pw : Nat) : Word32 :=
  BitVec.ofNat 32 (leNat (Memory.read (if 4 * pw < dramTop then m.dram else m.host) (4 * pw) 4))

/-- The backing memory with a word written. -/
def Mem.setBacking (m : Mem) (pw : Nat) (x : Word32) : Mem :=
  if 4 * pw < dramTop then { m with dram := m.dram.write (4 * pw) (leBytes 4 x.toNat) }
  else { m with host := m.host.write (4 * pw) (leBytes 4 x.toNat) }

/-- The slice that holds the current value of a word: its owning proxy slice, or the home slice where that copy is valid. -/
def Mem.holder (m : Mem) (pw : Nat) : Option Nat :=
  let line := pw / 32
  match (m.dirAt line).owners.find (pw % 32) with
  | some sl => some sl
  | none =>
    let h := homeSlice (4 * pw)
    if (m.copy line h).valid.getLsbD (pw % 32) then some h else none

/-- The value of a word in home order. -/
def Mem.word (m : Mem) (pw : Nat) : Word32 :=
  match m.holder pw with
  | some sl => (m.copy (pw / 32) sl).data.get 0 (pw % 32)
  | none => m.backing pw

/-- A copy with a word written and dirty. -/
def SliceLine.write (c : SliceLine) (j : Nat) (x : Word32) : SliceLine :=
  { c with valid := c.valid ||| (1#32 <<< j), dirty := c.dirty ||| (1#32 <<< j), data := c.data.set j x }

/-- A copy with a word that it does not hold filled, clean. -/
def SliceLine.fill (c : SliceLine) (j : Nat) (x : Word32) : SliceLine :=
  { c with valid := c.valid ||| (1#32 <<< j), data := c.data.set j x }

/-- A copy without the words of a mask. -/
def SliceLine.drop (c : SliceLine) (words : Word32) : SliceLine :=
  { c with
    valid := c.valid &&& ~~~words
    dirty := c.dirty &&& ~~~words
    data := c.data.filter (fun p => !words.getLsbD p.1) }

/-- The memory with words of a line dropped from a slice's copy, where it has one. -/
def Mem.dropWords (m : Mem) (line slice : Nat) (words : Word32) : Mem :=
  let c := m.copy line slice
  if c.valid &&& words = 0#32 then m else m.setCopy line slice (c.drop words)

/-- The memory with one word changed in home order. The slice that holds the word takes it; clean copies of the word in other slices are
invalidated. -/
def Mem.setWord (m : Mem) (pw : Nat) (x : Word32) : Mem :=
  let line := pw / 32
  let j := pw % 32
  let at_ := m.holder pw
  let m1 := (slicesFor line).foldl (fun (m : Mem) sl => if at_ = some sl then m else m.dropWords line sl (1#32 <<< j)) m
  match at_ with
  | some sl => m1.setCopy line sl ((m1.copy line sl).write j x)
  | none => m1.setBacking pw x

/-- The byte at a physical address in home order. -/
def Mem.byte (m : Mem) (pa : Nat) : Byte := (m.word (pa / 4)).extractLsb' (8 * (pa % 4)) 8

/-- A word with one byte replaced. -/
def setByteOf (w : Word32) (i : Nat) (b : Byte) : Word32 :=
  (w &&& ~~~(0xFF#32 <<< (8 * i))) ||| (b.setWidth 32 <<< (8 * i))

/-- The memory with one byte changed in home order. -/
def Mem.setByte (m : Mem) (pa : Nat) (b : Byte) : Mem := m.setWord (pa / 4) (setByteOf (m.word (pa / 4)) (pa % 4) b)

/-- The bytes at `pa` to `pa + n − 1` in home order. -/
def Mem.bytes (m : Mem) (pa n : Nat) : List Byte := (List.range n).map (fun i => m.byte (pa + i))

/-- The memory with bytes changed at `pa` in home order; a word written whole loses its poison (R175). -/
def Mem.setBytes (m : Mem) (pa : Nat) (bs : List Byte) : Mem :=
  let m1 := (List.range bs.length).foldl (fun (m : Mem) i => m.setByte (pa + i) (bs.getD i 0)) m
  { m1 with poison := m1.poison.filter (fun w => !(pa ≤ 4 * w && 4 * w + 4 ≤ pa + bs.length)) }

/-- The 64-bit word at a physical address in home order. -/
def Mem.dword (m : Mem) (pa : Nat) : DWord := BitVec.ofNat 64 (leNat (m.bytes pa 8))

/-- Whether a byte range touches a poisoned word (R175). -/
def Mem.poisoned (m : Mem) (pa n : Nat) : Bool := m.poison.any (fun w => 4 * w < pa + n && pa < 4 * w + 4)

/-- The words of a byte range marked poisoned (R175). -/
def Mem.markPoison (m : Mem) (pa n : Nat) : Mem :=
  let ws := ((List.range ((pa + n + 3) / 4 - pa / 4)).map (fun i => pa / 4 + i)).filter (fun w => !m.poison.contains w)
  { m with poison := m.poison ++ ws }

/-- The words of a line at their values in home order. -/
def Mem.lineWords (m : Mem) (line : Nat) : List (Nat × Word32) := (List.range 32).map (fun j => (32 * line + j, m.word (32 * line + j)))

/-- Every slice copy of a line written back and invalidated (R167, R385). -/
def Mem.flushLine (m : Mem) (line : Nat) : Mem :=
  let words := m.lineWords line
  let held := (slicesFor line).any (fun sl => (m.copy line sl).valid ≠ 0#32)
  let m1 := (slicesFor line).foldl (fun (m : Mem) sl => m.setCopy line sl .none) m
  let m2 := { m1 with dir := m1.dir.erase line }
  if held then words.foldl (fun (m : Mem) p => m.setBacking p.1 p.2) m2 else m2

/-- Every dirty word that a slice holds for a line written to DRAM or host memory; the copies stay, clean (R189). -/
def Mem.cleanLine (m : Mem) (line : Nat) : Mem :=
  let words := m.lineWords line
  let m1 := (slicesFor line).foldl (fun (m : Mem) sl =>
      let c := m.copy line sl
      if c.dirty = 0#32 then m else m.setCopy line sl { c with dirty := 0 }) m
  words.foldl (fun (m : Mem) p => m.setBacking p.1 p.2) m1

/-! ### The directory (R219, R220) -/

/-- The words of a line that a slice owns. -/
def DirEntry.ownedBy (e : DirEntry) (slice : Nat) : Word32 :=
  e.owners.foldl (fun (m : Word32) p => if p.2 = slice then m ||| (1#32 <<< p.1) else m) 0

/-- The owners of words of a mask other than a requester. -/
def DirEntry.others (e : DirEntry) (requester : Nat) (words : Word32) : List Nat :=
  ((e.owners.filter (fun p => p.2 ≠ requester && words.getLsbD p.1)).map (fun p => p.2)).eraseDups

/-- The sharers of a line other than a requester: proxy slices whose die's bit is set. -/
def Mem.sharersOf (m : Mem) (line requester : Nat) : List Nat :=
  (slicesFor line).filter (fun sl => sl ≠ requester && isProxy sl line && (m.dirAt line).sharers.getLsbD (sliceDie sl))

/-- The memory with a message sent. -/
def Mem.send (m : Mem) (line : Nat) (x : CohMsg) : Mem :=
  if m.msgs.contains (line, x) then m else { m with msgs := m.msgs ++ [(line, x)] }

/-- The dirty words of a slice's copy written to DRAM or host memory: the copy stays, clean, and an owner becomes a sharer (R220). -/
def Mem.writeBackSlice (m : Mem) (line slice : Nat) : Mem :=
  let c := m.copy line slice
  let e := m.dirAt line
  if c.dirty = 0#32 then m
  else
    let m1 := (List.range 32).foldl (fun (m : Mem) j =>
      if c.dirty.getLsbD j && m.holder (32 * line + j) = some slice then m.setBacking (32 * line + j) (c.data.get 0 j) else m) m
    let owners := e.owners.filter (fun p => !(p.2 = slice && c.dirty.getLsbD p.1))
    let sharers := if isProxy slice line then e.sharers ||| dieBit slice else e.sharers
    (m1.setCopy line slice { c with dirty := 0 }).setDir line owners sharers

/-- A slice's copy with the words of a mask merged, clean, at their values in home order; words that it owns are not touched. -/
def Mem.merge (m : Mem) (line slice : Nat) (words : Word32) : Mem :=
  let own := (m.dirAt line).ownedBy slice
  m.setCopy line slice ((List.range 32).foldl (fun (c : SliceLine) j =>
    if words.getLsbD j && !own.getLsbD j && !c.dirty.getLsbD j then c.fill j (m.word (32 * line + j)) else c) (m.copy line slice))

/-- The words of a proxy slice's copy that the slice gives up with those of a mask: a sharer keeps the others, and a slice that does not share
the line keeps those alone that it still owns (R220). -/
def DirEntry.givenUp (e : DirEntry) (slice : Nat) (words : Word32) : Word32 :=
  if e.sharers.getLsbD (sliceDie slice) then words else words ||| ~~~e.ownedBy slice

/-- Ownership of the words of a mask given to a proxy slice: it holds them dirty, and every other slice gives them up (R220). -/
def Mem.giveWords (m : Mem) (line slice : Nat) (words : Word32) : Mem :=
  let e := m.dirAt line
  let vals := (List.range 32).filterMap (fun j => if words.getLsbD j then some (j, m.word (32 * line + j)) else none)
  let m1 := ((slicesFor line).filter (fun sl => sl ≠ slice)).foldl (fun (m : Mem) sl =>
    m.dropWords line sl (if isProxy sl line then e.givenUp sl words else words)) m
  let m2 := m1.setCopy line slice (vals.foldl (fun (c : SliceLine) p => c.write p.1 p.2) (m1.copy line slice))
  m2.setDir line (vals.foldl (fun (o : Map Nat) p => o.set p.1 slice) e.owners) (e.sharers &&& ~~~dieBit slice)

/-- The words of a mask recalled from their owners to the home: the home slice's copy takes them, dirty, where it has one, else the memory
behind it (R220). -/
def Mem.recallWords (m : Mem) (line : Nat) (words : Word32) : Mem :=
  let h := homeSlice (128 * line)
  let e := m.dirAt line
  let vals := (e.owners.filter (fun p => words.getLsbD p.1)).map (fun p => (p.1, m.word (32 * line + p.1)))
  if vals.isEmpty then m
  else
    let m1 := (e.others h words).foldl (fun (m : Mem) sl => m.dropWords line sl (e.givenUp sl words)) m
    let m2 := m1.setDir line (e.owners.filter (fun p => !words.getLsbD p.1)) e.sharers
    if (m2.copy line h).valid = 0#32 then vals.foldl (fun (m : Mem) p => m.setBacking (32 * line + p.1) p.2) m2
    else m2.setCopy line h (vals.foldl (fun (c : SliceLine) p => c.write p.1 p.2) (m2.copy line h))

/-- The owned words of a line written to the memory behind its home; their owners keep clean copies (R220). -/
def Mem.recallLine (m : Mem) (line : Nat) : Mem :=
  ((m.dirAt line).owners.map (fun p => p.2)).eraseDups.foldl (fun (m : Mem) o => m.writeBackSlice line o) m

/-- The sharers of a line other than a requester give up the words that they do not own; an invalidation is left on its way to each, which
its die's L1s have yet to see (R220). -/
def Mem.dropSharers (m : Mem) (line requester : Nat) : Mem :=
  (m.sharersOf line requester).foldl (fun (m : Mem) q =>
    let e := m.dirAt line
    ((m.dropWords line q (~~~e.ownedBy q)).setDir line e.owners (e.sharers &&& ~~~dieBit q)).send line (.invalidate q)) m

/-- Bytes written in home order for an agent that has no cache of its own in the directory: owners' words are recalled and sharers give up their
copies (R219, R220). -/
def Mem.homeWrite (m : Mem) (pa : Nat) (bs : List Byte) : Mem :=
  ((m.dropSharers (pa / 128) (homeSlice pa)).recallWords (pa / 128) (wordMask pa bs.length)).setBytes pa bs

/-! ### Islands that an access wakes (R16) -/

/-- An island woken, where it is gated; in the safe state none starts (R391). -/
def State.wakeIsland (s : State) (n : Nat) : State :=
  if (s.platform.islands.get .none n).gated && !s.platform.safe then
    s.mapPlatform (fun p => { p with islands := p.islands.set n { p.islands.get .none n with gated := false } })
  else s

/-- The island of a slice woken by an access or command that arrives for it, with the fabric of its die. -/
def State.wakeSlice (s : State) (slice : Nat) : State :=
  if slice < 96 then (s.wakeIsland (384 + slice)).wakeIsland (508 + sliceDie slice) else s

/-- The island of a core's matrix engine woken by a command for it, with the fabric of its die. -/
def State.wakeMatrix (s : State) (core : Nat) : State := (s.wakeIsland (192 + core)).wakeIsland (508 + dieOf core)

/-! ### The arrays of a slice (R6, R12, R161, R165, R166, R174) -/

/-- The plots of a slice in cache mode. -/
def Slice.cachePlots (c : Slice) : List Nat := (List.range 8).filter (fun p => c.modes.get .cache p = .cache)

/-- Whether a slice number is of the Plovdy cluster's L2 (R390). -/
def inCluster (slice : Nat) : Bool := decide (96 ≤ slice % 128)

/-- The lines that lie in the arrays of a slice, by key; the parts of the cluster's L2 share theirs. -/
def Mem.linesOf (m : Mem) (slice : Nat) : Map SliceLine :=
  m.copies.filter (fun p => if inCluster slice then inCluster (p.1 % 128) else p.1 % 128 = slice % 128)

/-- The lines that lie in a plot. -/
def Mem.linesIn (m : Mem) (slice plot : Nat) : Nat := ((m.linesOf slice).filter (fun p => p.2.plot = plot)).length

/-- A plot of a slice with room for a line: a cache plot holds 8,192 lines, and the cluster's L2 32,768 (R6, R12, R390). -/
def State.freePlot (s : State) (slice : Nat) : Option Nat :=
  if inCluster slice then (if (s.mem.linesOf slice).length < 32768 then some 0 else none)
  else (s.sliceAt slice).cachePlots.find? (fun p => decide (s.mem.linesIn slice p < 8192))

/-- The device's hold on a host-memory line set. -/
def Mem.setGrant (m : Mem) (line : Nat) (x : Option Bool) : Mem :=
  let rest := m.granted.filter (fun p => p.1 ≠ line)
  { m with granted := match x with | none => rest | some b => rest ++ [(line, b)] }

/-- A slice's copy of a line evicted: its dirty words go to their home and the directory forgets it; with the last copy of a host-memory line
the device gives the line up (R216, R220, R243). -/
def Mem.evictCopy (m : Mem) (line slice : Nat) : Mem :=
  let m1 := m.writeBackSlice line slice
  let e := m1.dirAt line
  let m2 := (m1.setCopy line slice .none).setDir line (e.owners.filter (fun p => p.2 ≠ slice))
    (if isProxy slice line then e.sharers &&& ~~~dieBit slice else e.sharers)
  if rangeOf (128 * line) = .host && (slicesFor line).all (fun sl => (m2.copy line sl).valid = 0#32) then m2.setGrant line none else m2

/-- The lines that a slice may evict: those of its cache plots that are not pinned, of the lowest rank of R166; a plot that has left cache mode
is in no replacement set (R12, R174). -/
def State.victims (s : State) (slice : Nat) : Map SliceLine :=
  let free := (s.mem.linesOf slice).filter (fun p => !p.2.pinned && (inCluster slice || (s.sliceAt slice).cachePlots.contains p.2.plot))
  let low := free.foldl (fun (n : Nat) p => min n p.2.rank) 2
  free.filter (fun p => p.2.rank = low)

/-- Room for a line in a slice: a plot with room, or that of the line that `Config.victim` evicts; none where every line is pinned or no plot
is in cache mode (R12, R165, R166; log 71). -/
def State.roomIn (s : State) (slice : Nat) : Option (State × Nat) :=
  match s.freePlot slice with
  | some p => some (s, p)
  | none =>
    let vs := s.victims slice
    match vs[Config.victim s.free % vs.length]? with
    | none => none
    | some v => some ({ s.mapMem (fun m => m.evictCopy (v.1 / 128) (v.1 % 128)) with free := s.free + 1 }, v.2.plot)

/-- A slice's copy of a line filled at a plot: the home slice with the words that no proxy slice owns, a proxy slice with the whole line, as
a sharer (R165, R166, R219, R220). -/
def Mem.fillCopy (m : Mem) (line slice plot rank : Nat) (pin : Bool) : Mem :=
  let c := m.copy line slice
  let e := m.dirAt line
  let proxy := isProxy slice line
  let c1 := (List.range 32).foldl (fun (c : SliceLine) j =>
    if c.valid.getLsbD j || (!proxy && (e.owners.find j).isSome) then c else c.fill j (m.word (32 * line + j))) c
  let m1 := m.setCopy line slice { c1 with pinned := c.pinned || pin, plot := plot, rank := rank }
  if proxy && e.ownedBy slice ≠ 0xFFFFFFFF#32 then m1.setDir line e.owners (e.sharers ||| dieBit slice) else m1

/-- A line read into a slice, whose island it wakes (R16); where the slice has no room for it nothing is allocated. -/
def State.shareLine (s : State) (line slice rank : Nat) (pin : Bool) : State :=
  let s0 := s.wakeSlice slice
  match s0.mem.copies.find (copyKey line slice) with
  | some c => s0.mapMem (fun m => m.fillCopy line slice c.plot rank pin)
  | none =>
    match s0.roomIn slice with
    | none => s0
    | some (s1, p) => s1.mapMem (fun m => m.fillCopy line slice p rank pin)

/-- Ownership of words of a line obtained for a write through a slice: a proxy slice with room owns them from then on, and for the home slice,
or a proxy slice without room, they are recalled to the home. Sharers give up their copies (R219, R220). -/
def State.ownWords (s : State) (line slice : Nat) (words : Word32) (rank : Nat) : State :=
  let s1 := s.shareLine line slice rank false
  let s2 := s1.mapMem (fun m => m.dropSharers line slice)
  if isProxy slice line && (s2.mem.copies.find (copyKey line slice)).isSome then s2.mapMem (fun m => m.giveWords line slice words)
  else s2.mapMem (fun m => m.recallWords line words)

/-- The island of a line's home slice woken by a request or access that arrives there (R16). -/
def State.atHome (s : State) (line : Nat) : State := s.wakeSlice (homeSlice (128 * line))

/-- Bytes within a line written at home by an agent that has no cache of its own in the directory. Words of host memory are merged in the home
slice's copy, which is read first (R216, R219, R220). -/
def State.homeWrite (s : State) (pa : Nat) (bs : List Byte) : State :=
  let s0 := s.atHome (pa / 128)
  let s1 := if rangeOf pa = .host then s0.shareLine (pa / 128) (homeSlice pa) 1 false else s0
  s1.mapMem (fun m => m.homeWrite pa bs)

end Sys2Proof.Machine
end

