-- ==== Sys2Proof/Machine/Memory.lean ====
section
/-! DEFINITION. The host's side of an access, translation, window pages, scratchpad mappings, and accesses performed at their place (R164 to
R167, R171, R177, R215, R216, R221 to R226, R323 to R329, R332). -/
namespace Sys2Proof.Machine

/-! ### Why an access stops -/

/-- Why an access is not performed: a cause with the address it names, the access bits of a fault record (R273) and whether it parks a
team; an answer that has not come, with the request of R387 that asks for it; a host atomic that cannot be performed, with UVAL of R388;
or a poisoned word that a team or engine consumes (R175). -/
inductive Stop where
  | trap (cause : Cause) (va : DWord) (acc : Byte) (parks : Bool)
  | wait (request : Option CxlRequest)
  | host (uval : DWord)
  | poison (va : DWord)
  deriving DecidableEq, Repr

/-- The result of an access: what it gives, or the stop with the state that the steps before it leave (the accessed and dirty bits of
translations that passed, R164). -/
abbrev Res (α : Type) := Except (Stop × State) α

/-! ### The host's side (R216, R221, R387) -/

/-- The snoop filter entry of a line, if the host may hold the line. -/
def Mem.snoopOf (m : Mem) (line : Nat) : Option SnoopEntry := m.snoop.find? (fun e => e.line = line)

/-- The device's hold on a host-memory line: none, shared, or owned. -/
def Mem.grant (m : Mem) (line : Nat) : Option Bool := (m.granted.find? (fun p => p.1 = line)).map (fun p => p.2)

/-- Why an access to a line must wait for the host: a snoop filter entry in the way of a write, or of a read of a line that the host
holds modified (R221), or a host-memory line that the device does not hold as CXL.cache requires (R216, R387). -/
def State.hostBlocks (s : State) (pa : Nat) (write cached : Bool) : Option Stop :=
  let line := pa / 128
  if rangeOf pa = .dram then
    match s.mem.snoopOf line with
    | some e => if write || e.modified then some (.wait none) else none
    | none => none
  else if cached then
    match s.mem.grant line with
    | some true => none
    | some false => if write then some (.wait (some ⟨line, true⟩)) else none
    | none => some (.wait (some ⟨line, write⟩))
  else none

/-! ### Translation (R164, R323 to R327) -/

/-- The sizes of leaves by level (R323). -/
def leafSize (level : Nat) : Nat := 4096 * 512 ^ level

/-- Whether a valid entry is malformed at a level for an address (R324, R325). -/
def entryMalformed (e : DWord) (level va : Nat) : Bool :=
  let aux := bitsOf e 52 7
  let kind := bitsOf e 6 2
  let home := bitsOf e 4 2
  let leaf := bitsOf e 3 1 = 1
  let contiguous := bitsOf e 9 1 = 1
  bitsOf e 59 5 ≠ 0 || bitsOf e 8 1 ≠ 0
    || (if leaf then
          decide (3 ≤ level)
            || (if kind = 1 || kind = 2 then decide (8 ≤ aux) else if home = 2 then decide (64 ≤ aux) else decide (aux ≠ 0))
            || decide (bitsOf e 12 40 % 512 ^ level ≠ 0)
            || (contiguous && (level ≠ 0 || decide (bitsOf e 12 40 % 16 ≠ va / 4096 % 16)))
        else level = 0 || decide (bitsOf e 1 11 ≠ 0) || decide (aux ≠ 0))

/-- The address of the entry for a virtual address in a table page at a level (R323). -/
def entryAt (va table level : Nat) : Nat := table + 8 * (va / 4096 / 512 ^ level % 512)

/-- What a walk finds: the leaf that maps the address, if a valid one does, and the table pages that it reads, by level, first to last. -/
structure Walk where
  leaf : Option Leaf
  tables : List (Nat × Nat)
  deriving DecidableEq, Repr

/-- The leaf that a valid entry of a level stands for (R324). -/
def leafOf (e : DWord) (at_ level : Nat) : Leaf :=
  let contiguous := bitsOf e 9 1 = 1
  let ppn := bitsOf e 12 40
  { base := (if contiguous then ppn / 16 * 16 else ppn) * 4096
    size := if contiguous then 65536 else leafSize level
    writable := bitsOf e 1 1 = 1
    execute := bitsOf e 2 1 = 1
    home := BitVec.ofNat 2 (bitsOf e 4 2)
    kind := BitVec.ofNat 2 (bitsOf e 6 2)
    aux := BitVec.ofNat 7 (bitsOf e 52 7)
    entry := at_
    dirtySet := false }

/-- The walk from a table page at a level (R323, R325, R326). -/
def walkFrom (m : Mem) (va table level : Nat) : Walk :=
  if dramTop ≤ table then ⟨none, []⟩
  else
    let at_ := entryAt va table level
    let e := m.dword at_
    if bitsOf e 0 1 = 0 || entryMalformed e level va then ⟨none, [(level, table)]⟩
    else if bitsOf e 3 1 = 1 then ⟨some (leafOf e at_ level), [(level, table)]⟩
    else
      match level with
      | 0 => ⟨none, [(level, table)]⟩
      | l + 1 =>
        let w := walkFrom m va (bitsOf e 12 40 * 4096) l
        ⟨w.leaf, (level, table) :: w.tables⟩

/-- Who translates: the core whose TLBs serve the access, if one does, and the gang for which misses are counted (R327, R356). -/
structure Walker where
  core : Option Nat
  gang : Option Nat
  deriving DecidableEq, Repr

/-- An agent without a TLB. -/
def Walker.agent : Walker := ⟨none, none⟩

/-- Where a walk starts: at the lowest table page of the address in the walk cache of the die, else at the root (R327). -/
def State.walkStart (s : State) (die : Option Nat) (ctx va : Nat) : Nat × Nat :=
  match die with
  | none => (4, (s.ctxAt ctx).root * 4096)
  | some d =>
    ((s.hub.walks.get [] d).filter (fun e => e.ctx = ctx && e.va = va / leafSize (e.level + 1) * leafSize (e.level + 1))).foldl
      (fun (b : Nat × Nat) e => if e.level < b.1 then (e.level, e.table) else b) (4, (s.ctxAt ctx).root * 4096)

/-- The walk of an address of a context (R326). -/
def State.walkOn (s : State) (die : Option Nat) (ctx va : Nat) : Walk :=
  if (s.ctxAt ctx).valid then
    let b := s.walkStart die ctx va
    walkFrom s.mem va b.2 b.1
  else ⟨none, []⟩

/-- The leaf that maps an address of a context now (R326). -/
def State.walk (s : State) (ctx va : Nat) : Option Leaf := (s.walkOn none ctx va).leaf

/-- Why a walk stops before its end: an entry lies in a line that the host holds modified, or in a poisoned word (R175, R215, R326). -/
def State.walkStop (s : State) (va : Nat) (w : Walk) : Option Stop :=
  w.tables.findSome? (fun t =>
    match s.hostBlocks (entryAt va t.2 t.1) false true with
    | some e => some e
    | none => if s.mem.poisoned (entryAt va t.2 t.1) 8 then some (.poison (BitVec.ofNat 64 va)) else none)

/-- The accessed bit, and for a write or atomic the dirty bit, set in the leaf's entry by one indivisible OR, of which the walk just made has
read the word (R326); it waits while the host holds the line (R215). -/
def State.setUsed (s : State) (l : Leaf) (write : Bool) : Res State :=
  let e := s.mem.dword l.entry
  let e' := e ||| (if write then 0xC00#64 else 0x400#64)
  if e' = e then .ok s
  else
    match s.hostBlocks l.entry true true with
    | some x => .error (x, s)
    | none => .ok (s.homeWrite l.entry (leBytes 8 e'.toNat))

/-- A fully associative translation cache with an entry added: a full one gives up the entry that `Config.victim` names (log 15). -/
def tlbAdd (cap free : Nat) (t : List TlbEntry) (e : TlbEntry) : List TlbEntry :=
  let t1 := t.filter (fun x => !(x.ctx = e.ctx && x.va = e.va))
  if t1.length < cap then t1 ++ [e] else t1.eraseIdx (Config.victim free % cap) ++ [e]

/-- The set of a last-level TLB in which an entry lies (R327; log 74). -/
def TlbEntry.set (e : TlbEntry) : Nat := Config.tlbSet e.ctx e.va e.leaf.size % 128

/-- A last-level TLB with an entry added to its set of 16 ways (R327). -/
def dieTlbAdd (free : Nat) (t : List TlbEntry) (e : TlbEntry) : List TlbEntry :=
  let t1 := t.filter (fun x => !(x.ctx = e.ctx && x.va = e.va))
  if t1.length < 16 then t1 ++ [e]
  else
    let ways := t1.filter (fun x => x.set = e.set)
    match if ways.length < 16 then none else ways[Config.victim free % 16]? with
    | some v => t1.erase v ++ [e]
    | none => t1 ++ [e]

/-- The entry of a translation cache that covers an address of a context. -/
def tlbFind (t : List TlbEntry) (ctx va : Nat) : Option TlbEntry :=
  t.find? (fun e => e.ctx = ctx && e.va ≤ va && va < e.va + e.leaf.size)

/-- The L1 TLB of a core with an entry added. -/
def State.tlbFill (s : State) (core : Nat) (e : TlbEntry) : State :=
  { s.mapCore core (fun c => { c with tlb := tlbAdd 64 s.free c.tlb e }) with free := s.free + 1 }

/-- What a walk has found remembered: the leaf by the L1 TLB of the core and the last-level TLB of its die, the table pages below the root by
the die's walk cache (R327; log 77). -/
def State.remember (s : State) (core ctx va : Nat) (l : Leaf) (tables : List (Nat × Nat)) : State :=
  let e : TlbEntry := ⟨ctx, va / l.size * l.size, l⟩
  let d := dieOf core
  let s1 := s.mapHub (fun h => { h with
    dieTlb := h.dieTlb.set d (dieTlbAdd s.free (h.dieTlb.get [] d) e)
    walks := h.walks.set d ((tables.filter (fun t => t.1 < 4)).foldl (fun (ws : List WalkEntry) t =>
      let w : WalkEntry := ⟨ctx, t.1, va / leafSize (t.1 + 1) * leafSize (t.1 + 1), t.2⟩
      if ws.contains w then ws else ws ++ [w]) (h.walks.get [] d)) })
  s1.tlbFill core e

/-- A miss counted for the gang that makes the access (R356). -/
def State.countFor (s : State) (g : Option Nat) (ev n : Nat) : State :=
  match g with
  | some g => s.count g ev n
  | none => s

/-- The slices in which the entries lie that a walk reads woken (R16). -/
def State.wakeWalk (s : State) (va : Nat) (w : Walk) : State := w.tables.foldl (fun (s : State) t => s.atHome (entryAt va t.2 t.1 / 128)) s

/-- The leaf for an access: from the core's TLB or its die's where the bits that the access sets are remembered, else from a walk, with the
table pages of the walk. An agent that is no core walks each time. A page that is one of a contiguous run is walked each time, since the
run's bits are set page by page (R326, R327). -/
def State.leafFor (s : State) (w : Walker) (ctx va : Nat) (write : Bool) : Res (State × Option (Leaf × Option (List (Nat × Nat)))) :=
  let useful (e : TlbEntry) : Bool := e.leaf.size ≠ 65536 && (e.leaf.dirtySet || !write)
  let walked (s : State) (die : Option Nat) : Res (State × Option (Leaf × Option (List (Nat × Nat)))) :=
    let r := s.walkOn die ctx va
    match s.walkStop va r with
    | some e => .error (e, s)
    | none => .ok (s.wakeWalk va r, r.leaf.map (fun l => ({ l with dirtySet := write }, some r.tables)))
  match w.core with
  | none => walked s none
  | some c =>
    match (tlbFind (s.coreAt c).tlb ctx va).filter useful with
    | some e => .ok (s, some (e.leaf, none))
    | none =>
      let s1 := s.countFor w.gang 5 1
      match (tlbFind (s1.hub.dieTlb.get [] (dieOf c)) ctx va).filter useful with
      | some e => .ok (s1.tlbFill c e, some (e.leaf, none))
      | none => walked (s1.countFor w.gang 6 1) (some (dieOf c))

/-- Whether a range of addresses of a context lies in the set of an invalidation (R328): a range of 0 bytes names nothing, any other is
rounded out to 4 KiB. -/
def scopeHas (scope : Option (Nat × Option (Nat × Nat))) (ctx first size : Nat) : Bool :=
  match scope with
  | none => true
  | some (c, none) => ctx = c
  | some (c, some (va, len)) =>
    ctx = c && decide (0 < len) && decide (first < (va + len + 4095) / 4096 * 4096) && decide (va / 4096 * 4096 < first + size)

/-- Whether a translation lies in the set of an invalidation (R328). -/
def TlbEntry.inScope (e : TlbEntry) (scope : Option (Nat × Option (Nat × Nat))) : Bool := scopeHas scope e.ctx e.va e.leaf.size

/-- Whether an entry of a walk cache lies in the set of an invalidation (R328). -/
def WalkEntry.inScope (e : WalkEntry) (scope : Option (Nat × Option (Nat × Nat))) : Bool := scopeHas scope e.ctx e.va (leafSize (e.level + 1))

/-- The translations of a set removed from every L1 TLB, last-level TLB and walk cache (R328). -/
def State.flushTlbs (s : State) (scope : Option (Nat × Option (Nat × Nat))) : State :=
  { s with
    cores := s.cores.mapValues (fun _ c => { c with tlb := c.tlb.filter (fun e => !e.inScope scope) })
    hub := { s.hub with
      dieTlb := s.hub.dieTlb.mapValues (fun _ t => t.filter (fun e => !e.inScope scope))
      walks := s.hub.walks.mapValues (fun _ t => t.filter (fun e => !e.inScope scope)) } }

/-- An invalidation in progress by its number. -/
def State.invAt (s : State) (id : Nat) : Option Invalidation := s.hub.invs.find? (fun v => v.id = id)

/-- Whether an access translated before an invalidation of a set has still to be performed: a write on its way to an apply slot, or a group
of an atomic that waits for the host (R328). -/
def State.inFlight (s : State) (scope : Option (Nat × Option (Nat × Nat))) : Bool :=
  s.slices.any (fun p => p.2.writes.any (fun w => scopeHas scope w.ctx w.va 1))
  || s.teams.any (fun p => match p.2.status with
      | .atomicOp w => w.groups.any (fun g => match g.place with
          | .scratch _ _ => false
          | _ => scopeHas scope (s.ctxOf p.1) g.va.toNat 1)
      | _ => false)

/-- An invalidation with every earlier one of its requester performed, in request order; they complete once every access translated with an
entry that they remove has been performed (R328). -/
def State.completeInv (s : State) (id : Nat) : State × Bool :=
  match s.invAt id with
  | none => (s, true)
  | some v =>
    let due := s.hub.invs.filter (fun w => w.by_ = v.by_ && w.id ≤ id)
    let s1 := due.foldl (fun (s : State) w => s.flushTlbs w.scope) s
    if due.any (fun w => s1.inFlight w.scope) then (s1, false)
    else
      (s1.mapHub (fun h => { h with
        invs := h.invs.filter (fun w => !(w.by_ = v.by_ && w.id ≤ id))
        fns := h.fns.mapValues (fun _ f => if due.any (fun w => f.invBusy = some w.id) then { f with invBusy := none } else f) }), true)

/-- Whether an access writes (R164). -/
def accessWrites (a : Access) : Bool := match a with | .write => true | .atomic => true | _ => false

/-- Whether a page kind refuses an access (R164). -/
def kindRefuses (kind : BitVec 2) (a : Access) : Bool :=
  match kind.toNat with
  | 0 => false
  | 1 => match a with | .write => false | _ => true
  | 2 => match a with | .read => false | _ => true
  | _ => true

/-- The operator slot record of a slice. -/
def Slice.slot (c : Slice) (n : Nat) : OpSlot := c.slots.get .none n

/-- translate of R164: the leaf and the physical address, with the accessed and dirty bits set. `acc` is the access field of a record. -/
def State.translate (s : State) (w : Walker) (ctx va : Nat) (a : Access) (acc : Byte) : Res (State × Leaf × Nat) :=
  let v := BitVec.ofNat 64 va
  if 2 ^ 57 ≤ va then .error (.trap .pageNotPresent v acc false, s)
  else
    match s.leafFor w ctx va (accessWrites a) with
    | .error e => .error e
    | .ok (s1, none) => .error (.trap .pageNotPresent v acc true, s1)
    | .ok (s1, some (l, tables)) =>
      let pa := l.base + va % l.size
      if (accessWrites a && !l.writable) || (a = .fetch && !l.execute) then .error (.trap .writeProtection v acc true, s1)
      else if kindRefuses l.kind a || (l.home = 2 && dramTop ≤ pa) || (l.kind ≠ 0 && l.size ≠ 4096) then .error (.trap .windowKind v acc false, s1)
      else if l.kind ≠ 0 && ((s1.sliceAt (homeSlice pa)).slot (l.aux.toNat % 8)).installed = none then
        .error (.trap .noOperator v acc false, s1)
      else if rangeOf pa = .nothing then .error (.trap .pageNotPresent v acc true, s1)
      else
        match tables with
        | none => .ok (s1, l, pa)
        | some ts =>
          match s1.setUsed l (accessWrites a) with
          | .error e => .error e
          | .ok s2 => .ok (match w.core with
              | some c => s2.remember c ctx va l ts
              | none => s2, l, pa)

/-! ### Window pages and scratchpad mappings -/

/-- The input element size e_in and output element size e_out (R225). -/
def Operator.ein (o : Operator) : Nat := o.fmtIn.size

/-- The output element size (R225). -/
def Operator.eout (o : Operator) : Nat := o.fmtOut.size

/-- n rounded up to a multiple of 128. -/
def up128 (n : Nat) : Nat := (n + 127) / 128 * 128

/-- The apply stride A (R225). -/
def Operator.astride (o : Operator) : Nat := up128 (o.n * o.ein)

/-- The result stride Q (R225). -/
def Operator.qstride (o : Operator) : Nat := up128 (o.m * o.eout + 8)

/-- Whether granule `g` is a page of a window of `pages` pages from `first`, and its number. -/
def windowPage (g first pages : Nat) : Option Nat :=
  if first ≤ g && (g - first) % 192 = 0 && decide ((g - first) / 192 < pages) then some ((g - first) / 192) else none

/-- Where an access is performed: DRAM or host memory at home, hub register space, a gang's scratchpad, or an operator window. -/
inductive Place where
  | home (pa : Nat)
  | hub (off : Nat)
  | scratch (gang off : Nat)
  | window (slice slot off : Nat)
  deriving DecidableEq, Repr

/-- The window offset of an access to a window page of a context, or the cause of R224. -/
def State.windowOffset (s : State) (ctx : Nat) (l : Leaf) (pa : Nat) : Except Cause (Nat × Nat × Nat) :=
  let slice := homeSlice pa
  let slot := l.aux.toNat % 8
  let r := (s.sliceAt slice).slot slot
  let g := pa / 4096
  if l.size ≠ 4096 then .error .windowKind
  else if !r.valid || r.ctx ≠ ctx then .error .noOperator
  else
    let own := if l.kind = 1 then windowPage g r.applyFirst r.applyPages else windowPage g r.resultFirst r.resultPages
    let other := if l.kind = 1 then windowPage g r.resultFirst r.resultPages else windowPage g r.applyFirst r.applyPages
    match own, other, r.installed with
    | none, none, _ => .error .noOperator
    | none, some _, _ => .error .windowKind
    | some _, _, none => .error .noOperator
    | some p, _, some o =>
      let off := p * 4096 + pa % 4096
      let stride := if l.kind = 1 then o.astride else o.qstride
      if o.s * stride ≤ off then .error .windowKind else .ok (slice, slot, off)

/-- The scratchpad offset that an address of a mapping entry's run names, below the size of a declared scratchpad (R171, R332). -/
def MappingEntry.offsetOf (m : MappingEntry) (va scratch : Nat) : Option Nat :=
  let rel := va / 4096 * 4096 - m.va
  let off := 4096 * m.offset + rel + va % 4096
  if m.va ≤ va && rel < 4096 * m.pages && off < scratch then some off else Option.none

/-- The mapping entry that a page of home 2 names (R332). -/
def State.entryOf (s : State) (ctx : Nat) (l : Leaf) : MappingEntry := s.hub.mappings.get .none (64 * ctx + l.aux.toNat % 64)

/-- The gang and scratchpad offset that a page of home 2 names: its mapping entry binds it to a resident gang and the byte lies in the
gang's declared scratchpad and in the run (R171, R332). -/
def State.mappedByte (s : State) (ctx : Nat) (l : Leaf) (va : Nat) : Option (Nat × Nat) :=
  if l.size ≠ 4096 then none
  else
    match s.cores.findSome? (fun p => p.2.mappings.find? (fun x => x.1 = ctx && x.2.1 = l.aux.toNat % 64)) with
    | none => none
    | some x => ((s.entryOf ctx l).offsetOf va (s.gangAt x.2.2).scratch).map (fun off => (x.2.2, off))

/-- Where a translated access is performed (R163, R165, R171, R224). -/
def State.placeOf (s : State) (ctx va : Nat) (l : Leaf) (pa : Nat) : Except Cause Place :=
  if l.kind ≠ 0 then
    match s.windowOffset ctx l pa with
    | .ok (sl, slot, off) => .ok (.window sl slot off)
    | .error c => .error c
  else if rangeOf pa = .hub then .ok (.hub (pa - hubBase))
  else if l.home = 2 then
    match s.mappedByte ctx l va with
    | some (g, off) => .ok (.scratch g off)
    | none => .ok (.home pa)
  else .ok (.home pa)

/-- The place of an access of a gang: for a replay the pages that were mapped to the gang that it replays name its own scratchpad (R375; log 69). -/
def State.seenBy (s : State) (g ctx va : Nat) (l : Leaf) (p : Place) : Place :=
  let x := s.gangAt g
  let m := s.entryOf ctx l
  if x.replay && l.home = 2 && l.kind = 0 && l.size = 4096 && m.valid && m.dispatch = x.dispatch && m.glin = x.glin then
    match m.offsetOf va x.scratch with
    | some off => .scratch g off
    | none => p
  else p

/-- Whether a page acts as home 3: home 3 itself, an unheld mapping, hub register space, window kinds, and every host page of a virtual
function (R165, R171, R389). -/
def State.neverCached (s : State) (ctx : Nat) (l : Leaf) (pa : Nat) : Bool :=
  l.kind ≠ 0 || l.home = 2 || l.home = 3 || rangeOf pa = .hub || (rangeOf pa = .host && s.fnOf ctx ≠ 0)

/-! ### The bytes of windows -/

/-- The status word of a result slot (R226). -/
def ResultSlot.status (r : ResultSlot) : DWord :=
  BitVec.ofNat 64 (r.flags.toNat * 2 ^ 48 + r.overwrites.toNat * 2 ^ 32 + r.gen.toNat)

/-- A result slot after installation (R230). -/
def ResultSlot.none : ResultSlot := ⟨[], 0, 0, 0, 0, []⟩

/-- The byte of a result window at an offset (R225, R226, R230). -/
def Operator.resultByte (o : Operator) (off : Nat) : Byte :=
  let r := o.result.get .none (off / o.qstride)
  let b := off % o.qstride
  if b < o.m * o.eout then r.bytes.byte b
  else if o.qstride - 8 ≤ b then r.status.extractLsb' (8 * (b - (o.qstride - 8))) 8
  else 0

/-! ### Accesses performed at home -/

/-- How an access reaches a home: through the slices' caches or not, the slice through which it goes where it is a core's (R219), the rank that
its cache policy gives the line (R166), and whether the line is pinned in its home slice (R165). -/
structure Path where
  cached : Bool
  via : Option Nat
  rank : Nat
  pin : Bool
  deriving DecidableEq, Repr

/-- The path of home 3. -/
def Path.uncached : Path := ⟨false, none, 1, false⟩

/-- The path of a page for an access of a core, or of an agent that has no core, with a cache policy (R165, R166, R219). -/
def State.pathOf (s : State) (core : Option Nat) (ctx : Nat) (l : Leaf) (pa : Nat) (policy : BitVec 2) : Path :=
  if s.neverCached ctx l pa then .uncached
  else ⟨true, core.map (fun c => proxySlice (homeSlice pa) (dieOf c)), if policy = 1 then 0 else if policy = 2 then 2 else 1,
    l.home = 1 && rangeOf pa = .dram⟩

/-- The line of an access brought into the slices: pinned in its home slice where the page has home 1, and for a core's access held by the
slice of its die (R165, R166, R219). -/
def State.bring (s : State) (pa : Nat) (p : Path) : State :=
  let s1 := if p.pin then s.shareLine (pa / 128) (homeSlice pa) p.rank true else s
  match p.via with
  | some sl => s1.shareLine (pa / 128) sl p.rank false
  | none => s1

/-- A write merged in home order (R168, R173, R219). -/
def State.mergeAt (s : State) (pa : Nat) (bs : List Byte) (p : Path) : State :=
  let s1 := if p.pin then s.shareLine (pa / 128) (homeSlice pa) p.rank true else s
  match p.via with
  | some sl => (s1.ownWords (pa / 128) sl (wordMask pa bs.length) p.rank).mapMem (fun m => m.setBytes pa bs)
  | none => s1.homeWrite pa bs

/-- The slices through which an access goes woken (R16). -/
def State.wakeFor (s : State) (pa : Nat) (p : Path) : State :=
  match p.via with
  | some sl => (s.wakeSlice (homeSlice pa)).wakeSlice sl
  | none => s.wakeSlice (homeSlice pa)

/-- The gang with bytes of its scratchpad written; a word written whole loses its poison (R175). -/
def Gang.store (g : Gang) (off : Nat) (bs : List Byte) : Gang :=
  { g with
    scratchpad := g.scratchpad.write off bs
    poison := g.poison.filter (fun w => !(off ≤ 4 * w && 4 * w + 4 ≤ off + bs.length)) }

/-- Whether bytes of a scratchpad touch a poisoned word. -/
def Gang.poisoned (g : Gang) (off n : Nat) : Bool := g.poison.any (fun w => 4 * w < off + n && off < 4 * w + 4)

/-- The offset of the first poisoned word that bytes of a scratchpad touch. -/
def Gang.firstBad (g : Gang) (off n : Nat) : Option Nat :=
  g.poison.foldl (fun (m : Option Nat) w =>
    if 4 * w < off + n && off < 4 * w + 4 then some (m.elim (4 * w) (min (4 * w))) else m) Option.none

/-- The gang with words of its scratchpad marked poisoned, by byte. -/
def Gang.markPoison (g : Gang) (bytes : List Nat) : Gang :=
  { g with poison := bytes.foldl (fun (l : List Nat) b => if l.contains (b / 4) then l else l ++ [b / 4]) g.poison }

/-- Whether bytes of an operator's result window lie in poisoned bytes of a result slot (R175). -/
def State.windowPoisoned (s : State) (slice slot off n : Nat) : Bool :=
  ((s.sliceAt slice).slot slot).installed.any (fun o => (List.range n).any (fun i =>
    (o.result.get .none ((off + i) / o.qstride)).bad.contains ((off + i) % o.qstride)))

/-- A read performed at its place. Before an access of home 3 the slice copies of its line are written back and invalidated (R167). -/
def State.readPlace (s : State) (p : Place) (n : Nat) (path : Path) : Res (State × List Byte) :=
  match p with
  | .home pa =>
    match s.hostBlocks pa false path.cached with
    | some e => .error (e, s)
    | none =>
      let s0 := s.wakeFor pa path
      let s1 := if path.cached then s0.bring pa path else s0.mapMem (fun m => m.flushLine (pa / 128))
      .ok (s1, s1.mem.bytes pa n)
  | .hub off => .ok (s, s.hubBytes off n)
  | .scratch g off => .ok (s, (s.gangAt g).scratchpad.read off n)
  | .window sl slot off =>
    match ((s.sliceAt sl).slot slot).installed with
    | none => .ok (s, List.replicate n 0)
    | some o => .ok (s, (List.range n).map (fun i => o.resultByte (off + i)))

/-- Whether a turn is a store to hub register space on its way. -/
def Turn.isHub (t : Turn) : Bool :=
  decide (t.ticks = 0) && decide (t.cycles = 0) &&
  match t.mover with
  | .agent (.mgmtRegisterWrite _ _ _) => true
  | .agent (.kickRegisterWrite _ _) => true
  | .agent (.mgmtResume _ _) => true
  | .agent (.mgmtResumeKill _ _) => true
  | .agent (.icmdVa _) => true
  | .agent (.icmdCtx _) => true
  | .agent (.icmdAll _) => true
  | _ => false

/-- A doubleword of hub register space with the bytes of a store on its way to it put in. -/
def hubAfter (at_ : Nat) (x : DWord) (t : Turn) : DWord :=
  match t.mover with
  | .agent (.mgmtRegisterWrite _ off v) => if off = at_ then mergeBytes x v.value v.bytes else x
  | _ => x

/-- The bytes of hub register space as the stores on their way to it will leave them (R194; log 19). -/
def State.hubComing (s : State) (off n : Nat) : List Byte :=
  (List.range n).map (fun i =>
    let at_ := (off + i) / 8 * 8
    ((s.agenda.takeWhile Turn.isHub).foldl (hubAfter at_) (s.hubDword at_)).extractLsb' (8 * ((off + i) % 8)) 8)

/-- A write performed at its place; `bad` names the bytes of it that are poisoned. A store to hub register space is performed at the hub in
the next turns, after those already on their way (R187, R330). A write to an apply window is on its way to its slot (R228). -/
def State.writePlace (s : State) (ctx va : Nat) (by_ : Writer) (p : Place) (bs : List Byte) (bad : List Nat) (path : Path) : Res State :=
  match p with
  | .home pa =>
    match s.hostBlocks pa true path.cached with
    | some e => .error (e, s)
    | none =>
      let s0 := s.wakeFor pa path
      let s1 := if path.cached then s0.mergeAt pa bs path else s0.mapMem (fun m => (m.flushLine (pa / 128)).setBytes pa bs)
      .ok (s1.mapMem (fun m => bad.foldl (fun (m : Mem) i => m.markPoison (pa + i) 1) m))
  | .hub off =>
    .ok { s with agenda := s.agenda.takeWhile Turn.isHub ++ s.hubTurns ctx off bs ++ s.agenda.dropWhile Turn.isHub }
  | .scratch g off => .ok (s.mapGang g (fun x => (x.store off bs).markPoison (bad.map (fun i => off + i))))
  | .window sl slot off =>
    .ok ((s.wakeSlice sl).mapSlice sl (fun c => { c with writes := c.writes ++ [⟨by_, ctx, va, slot, off, (List.range bs.length).map (fun i => (i, bs.getD i 0)), bad⟩] }))

end Sys2Proof.Machine
end

