-- ==== Sys2Proof/Machine/L1.lean ====
section
/-! DEFINITION. The L1 of a core: where its lines lie in the core store, what it sends home, and what it fills (R100, R166 to R170, R173, R175,
R193, R218). -/
namespace Sys2Proof.Machine

/-! ### Lines -/

/-- The line of an L1 that holds a physical line. -/
def Core.line (c : Core) (line : Nat) : Option L1Line := c.l1.find? (fun x => x.line = line)

/-- The core with a line replaced or added; a line without valid words is dropped. -/
def Core.setLine (c : Core) (l : L1Line) : Core :=
  let rest := c.l1.filter (fun x => x.line ≠ l.line)
  { c with l1 := if l.valid = 0#32 then rest else rest ++ [l] }

/-- The core without a line. -/
def Core.dropLine (c : Core) (line : Nat) : Core := { c with l1 := c.l1.filter (fun x => x.line ≠ line) }

/-- The core with a line changed, where it holds it. -/
def Core.mapLine (c : Core) (line : Nat) (f : L1Line → L1Line) : Core :=
  match c.line line with
  | some l => c.setLine (f l)
  | none => c

/-- A line that holds no word yet, in a place of the core store. -/
def L1Line.fresh (ctx line vline slot : Nat) : L1Line := ⟨ctx, line, vline, 0, 0, [], false, slot, 1, 0, 0⟩

/-- An L1 line without the words of a mask. -/
def L1Line.drop (l : L1Line) (words : Word32) : L1Line :=
  { l with
    valid := l.valid &&& ~~~words
    dirty := l.dirty &&& ~~~words
    bad := l.bad &&& ~~~words
    data := l.data.filter (fun p => !words.getLsbD p.1) }

/-- A line of which a word has been written back; with its last dirty word it is no longer held (R168, R218). -/
def L1Line.sent (l : L1Line) (j : Nat) : L1Line :=
  let d := l.dirty &&& ~~~(1#32 <<< j)
  { l with dirty := d, held := l.held && d ≠ 0#32 }

/-- The dirty words of an L1 line, in ascending order. -/
def L1Line.dirtyWords (l : L1Line) : List (Nat × Word32) :=
  (List.range 32).filterMap (fun j => if l.dirty.getLsbD j then some (j, l.data.get 0 j) else none)

/-- The bytes of an L1 line. -/
def L1Line.bytes (l : L1Line) (off n : Nat) : List Byte :=
  (List.range n).map (fun i => ((l.data.get 0 ((off + i) / 4)).extractLsb' (8 * ((off + i) % 4)) 8 : Byte))

/-- An L1 line with bytes written at a tick: their words become valid and dirty, and a word written whole loses its poison (R168, R170,
R175). -/
def L1Line.write (l : L1Line) (tick off : Nat) (bs : List Byte) : L1Line :=
  let l1 := (List.range bs.length).foldl (fun (l : L1Line) i =>
    let j := (off + i) / 4
    { l with
      valid := l.valid ||| (1#32 <<< j)
      dirty := l.dirty ||| (1#32 <<< j)
      data := l.data.set j (setByteOf (l.data.get 0 j) ((off + i) % 4) (bs.getD i 0)) }) l
  { l1 with since := if l.dirty = 0#32 then tick else l.since, bad := if 4 ≤ bs.length then l.bad &&& ~~~(wordMask off bs.length) else l.bad }

/-- The words of an L1 line that are not valid filled from home, poisoned words excepted; a clean word is read again with the other word of its
aligned 8 bytes, so that both are of one moment (R168, R175, R187). -/
def L1Line.fill (l : L1Line) (m : Mem) : L1Line :=
  (List.range 32).foldl (fun (x : L1Line) j =>
    let other := if j % 2 = 0 then j + 1 else j - 1
    if m.poisoned (128 * l.line + 4 * j) 4 || (l.valid.getLsbD j && (l.dirty.getLsbD j || l.valid.getLsbD other)) then x
    else { x with valid := x.valid ||| (1#32 <<< j), data := x.data.set j (m.word (32 * l.line + j)) }) l

/-- The number of words of a mask. -/
def wordCount (m : Word32) : Nat := ((List.range 32).filter (fun j => m.getLsbD j)).length

/-! ### Write-backs (R168, R218) -/

/-- The words of a mask that a core's line holds dirty sent to their home under the line's own context, in ascending order: each is translated
for write when it is sent, a page of window kind refuses it with 0x12, and a word that has been sent is clean (R168, R218). The address of
a stop is the word's. -/
def State.sendWords (s : State) (core : Nat) (l : L1Line) (words : List (Nat × Word32)) (acc : Byte) : Res State :=
  words.foldl (fun (r : Res State) (p : Nat × Word32) =>
    match r with
    | .error e => .error e
    | .ok s =>
      let va := 128 * l.vline + 4 * p.1
      let w : Walker := ⟨some core, none⟩
      let window : Bool := match s.leafFor w l.ctx va true with
        | .ok (_, some r) => decide (r.1.kind ≠ 0)
        | _ => false
      if window then .error (.trap .windowKind (BitVec.ofNat 64 va) acc false, s)
      else
        match s.translate w l.ctx va .write acc with
        | .error e => .error e
        | .ok (s1, leaf, pa) =>
          match s1.placeOf l.ctx va leaf pa with
          | .error c => .error (.trap c (BitVec.ofNat 64 va) acc false, s1)
          | .ok place =>
            match s1.writePlace l.ctx va .other place (leBytes 4 p.2.toNat) (if l.bad.getLsbD p.1 then [0, 1, 2, 3] else [])
                { s1.pathOf (some core) l.ctx leaf pa 0 with rank := l.rank } with
            | .error e => .error e
            | .ok s2 => .ok (s2.mapCore core (fun c => c.mapLine l.line (fun x => x.sent p.1)))) (.ok s)

/-- The dirty words of a line written back; the line stays, clean (R168). -/
def State.writeBackLine (s : State) (core : Nat) (l : L1Line) (acc : Byte) : Res State := s.sendWords core l l.dirtyWords acc

/-- A line whose write-back has failed held in the L1 (R218). -/
def State.holdLine (s : State) (core line : Nat) : State := s.mapCore core (fun c => c.mapLine line (fun l => { l with held := true }))

/-- A line written back to leave the L1; `false` where a failed write-back holds it (R168, R218). -/
def State.evictLine (s : State) (core : Nat) (l : L1Line) (acc : Byte) : Res (State × Bool) :=
  match s.writeBackLine core l acc with
  | .ok s1 => .ok (s1.mapCore core (fun c => c.dropLine l.line), true)
  | .error (.wait r, s1) => .error (.wait r, s1)
  | .error (_, s1) => .ok (s1.holdLine core l.line, false)

/-- The issuing core's own dirty copies of the words that an access names, sent home, and the words invalidated in its L1 (R167, R193,
R201). -/
def State.evictWords (s : State) (core pa n : Nat) (acc : Byte) : Res State :=
  match (s.coreAt core).line (pa / 128) with
  | none => .ok s
  | some l =>
    let mask := wordMask pa n
    match s.sendWords core l (l.dirtyWords.filter (fun p => mask.getLsbD p.1)) acc with
    | .error e => .error e
    | .ok s1 => .ok (s1.mapCore core (fun c => c.mapLine (pa / 128) (fun l => l.drop mask)))

/-! ### Places in the core store (R99, R100, R169) -/

/-- The blocks of the core store that resident gangs hold. -/
def State.blocksOn (s : State) (core : Nat) : List (Nat × Nat) := (s.residents core).flatMap (fun g => (s.gangAt g).blocks)

/-- The first place at or after `k` that lies in no block and holds no line; each step passes a block or a line. -/
def slotFrom (blocks : List (Nat × Nat)) (used : List Nat) (k fuel : Nat) : Option Nat :=
  match fuel with
  | 0 => none
  | f + 1 =>
    if 8192 ≤ k then none
    else
      match blocks.find? (fun b => b.1 ≤ 128 * k && 128 * k < b.1 + b.2) with
      | some b => slotFrom blocks used ((b.1 + b.2 + 127) / 128) f
      | none => if used.contains k then slotFrom blocks used (k + 1) f else some k

/-- The lowest free place of the core store for a line of the L1, which lies in no block of a gang (R100; log 71). -/
def State.lineSlot (s : State) (core : Nat) : Option Nat :=
  let blocks := s.blocksOn core
  let used := (s.coreAt core).l1.map (fun l => l.slot)
  slotFrom blocks used 0 (blocks.length + used.length + 1)

/-- The lines that an L1 may evict: those that are not held, of the lowest rank of R166. -/
def Core.victims (c : Core) : List L1Line :=
  let free := c.l1.filter (fun l => !l.held)
  let low := free.foldl (fun (n : Nat) l => min n l.rank) 2
  free.filter (fun l => l.rank = low)

/-- Room for a line in an L1: a free place, or that of the line that `Config.victim` evicts; a line whose write-back fails is held and another
one is evicted; none where every line is held (R166, R168, R218; log 71). -/
def State.l1Room (s : State) (core fuel : Nat) : Res (State × Option Nat) :=
  match s.lineSlot core, fuel with
  | some k, _ => .ok (s, some k)
  | none, 0 => .ok (s, none)
  | none, f + 1 =>
    let vs := (s.coreAt core).victims
    match vs[Config.victim s.free % vs.length]? with
    | none => .ok (s, none)
    | some l =>
      match ({ s with free := s.free + 1 }).evictLine core l 0x02 with
      | .error e => .error e
      | .ok (s1, true) => .ok (s1, some l.slot)
      | .ok (s1, false) => s1.l1Room core f

/-- The line as a context finds or allocates it in an L1: a line held under another context's tag is first written back under its own tag and
invalidated; where that fails the line is held, and there is none for the new context (R168). -/
def State.lineFor (s : State) (core ctx line vline : Nat) : Res (State × Option L1Line) :=
  match (s.coreAt core).line line with
  | some l =>
    if l.ctx = ctx then .ok (s, some l)
    else
      match s.evictLine core l 0x02 with
      | .error e => .error e
      | .ok (s1, true) => .ok (s1, some (.fresh ctx line vline l.slot))
      | .ok (s1, false) => .ok (s1, none)
  | none =>
    match s.l1Room core (s.coreAt core).l1.length with
    | .error e => .error e
    | .ok (s1, k) => .ok (s1, k.map (L1Line.fresh ctx line vline))

/-- The L1 copy of a line written back if dirty and dropped, for the policy no-L1 (R166); `false` where a failed write-back holds it. -/
def State.passL1 (s : State) (core pa : Nat) (acc : Byte) : Res (State × Bool) :=
  match (s.coreAt core).line (pa / 128) with
  | none => .ok (s, true)
  | some l => s.evictLine core l acc

/-- The L1 lines that lie in a block of the core store: bases and sizes in bytes. -/
def Core.linesInBlocks (c : Core) (blocks : List (Nat × Nat)) : List L1Line :=
  c.l1.filter (fun l => blocks.any (fun b => b.1 < 128 * l.slot + 128 && 128 * l.slot < b.1 + b.2))

/-- A place of the core store outside the blocks given for a line that is held (R218). -/
def State.slotOutside (s : State) (core : Nat) (blocks : List (Nat × Nat)) : Option Nat :=
  let all := blocks ++ s.blocksOn core
  let used := (s.coreAt core).l1.map (fun l => l.slot)
  slotFrom all used 0 (all.length + used.length + 1)

/-- One line of a claimed block evicted; a line whose write-back fails is held and moves to another place, and the claim waits where there is
none (R100, R169, R218). -/
def State.claimLine (s : State) (core : Nat) (blocks : List (Nat × Nat)) (l : L1Line) : Res State :=
  match s.evictLine core l 0x02 with
  | .error e => .error e
  | .ok (s1, true) => .ok s1
  | .ok (s1, false) =>
    match s1.slotOutside core blocks with
    | some k => .ok (s1.mapCore core (fun c => c.mapLine l.line (fun x => { x with slot := k })))
    | none => .error (.wait none, s1)

/-- Blocks of the core store claimed from the L1: their lines are evicted, dirty words written back (R100, R169). -/
def State.claimBlocks (s : State) (core : Nat) (blocks : List (Nat × Nat)) : Res State :=
  ((s.coreAt core).linesInBlocks blocks).foldl (fun (r : Res State) l =>
    match r with
    | .error e => .error e
    | .ok s => s.claimLine core blocks l) (.ok s)

end Sys2Proof.Machine
end

