-- ==== Sys2Proof/Machine/Access.lean ====
section
/-! DEFINITION. What a team and an engine read and write: the local window and its register aperture, L1, home, windows and scratchpad
mappings (R102, R103, R165 to R168, R171, R175, R182, R187, R199, R228, R372, R374). -/
namespace Sys2Proof.Machine

/-- Where an element of a team's access lies: the gang's scratchpad, the vector or scalar part of the register aperture by byte offset,
or translated memory. -/
inductive Target where
  | scratch (off : Nat)
  | vreg (off : Nat)
  | sreg (off : Nat)
  | mem (va : Nat) (leaf : Leaf) (pa : Nat) (place : Place)
  deriving DecidableEq, Repr

/-! ### The register aperture (R102, R103) -/

/-- A byte of the vector part of the aperture. -/
def TeamRegs.apertureByte (r : TeamRegs) (tw off : Nat) : Byte :=
  (r.lane (off / 4 / tw) (off / 4 % tw)).extractLsb' (8 * (off % 4)) 8

/-- The registers with bytes of the vector part of the aperture written. -/
def TeamRegs.setAperture (r : TeamRegs) (tw off : Nat) (bs : List Byte) : TeamRegs :=
  (List.range bs.length).foldl (fun (r : TeamRegs) i =>
    let n := (off + i) / 4 / tw
    let l := (off + i) / 4 % tw
    r.setLanes tw n (fun k => if k = l then some (setByteOf (r.lane n l) ((off + i) % 4) (bs.getD i 0)) else none)) r

/-- A doubleword with one byte replaced. -/
def setByteOf64 (w : DWord) (i : Nat) (b : Byte) : DWord :=
  (w &&& ~~~(0xFF#64 <<< (8 * i))) ||| (b.setWidth 64 <<< (8 * i))

/-- The registers with bytes of the scalar part of the aperture written; bytes of s0 are discarded. -/
def TeamRegs.setScalarAperture (r : TeamRegs) (off : Nat) (bs : List Byte) : TeamRegs :=
  (List.range bs.length).foldl (fun (r : TeamRegs) i =>
    let n := (off + i) / 8
    r.setS n (setByteOf64 (r.sreg n) ((off + i) % 8) (bs.getD i 0))) r

/-! ### Poisoned registers (R175; log 32) -/

/-- Whether bytes of the vector part of the aperture lie in a poisoned lane. -/
def Team.badVector (t : Team) (tw off n : Nat) : Bool :=
  (List.range n).any (fun i => t.bad.contains (.vector ((off + i) / 4 / tw) ((off + i) / 4 % tw)))

/-- Whether bytes of the scalar part of the aperture lie in a poisoned register. -/
def Team.badScalar (t : Team) (off n : Nat) : Bool := (List.range n).any (fun i => t.bad.contains (.scalar ((off + i) / 8)))

/-- Whether a register word is written whole by bytes of the aperture. -/
def BadReg.coveredBy (b : BadReg) (tw : Nat) (vec : Bool) (off n : Nat) : Bool :=
  match b with
  | .vector r l => vec && decide (off ≤ 4 * (r * tw + l)) && decide (4 * (r * tw + l) + 4 ≤ off + n)
  | .scalar r => !vec && decide (off ≤ 8 * r) && decide (8 * r + 8 ≤ off + n)
  | .mask _ => false

/-! ### Checks of a team's access (R162, R182) -/

/-- A stop that ends the gang. -/
def stopEnd (c : Cause) (va : Nat) (acc : Byte) : Stop := .trap c (BitVec.ofNat 64 va) acc false

/-- The place of an element in the local window: scratchpad, or for a load or store the aperture, where it lies in one register (R102, R103,
R193, R201). R103 names the loads and stores of class 7 alone; the model serves the read of a load stream, ahead or not, and the push of a store
stream from the registers too (DESIGN CHOICE, log 75). -/
def State.localTarget (s : State) (u : Nat) (a : Access) (acc : Byte) (ea n : Nat) : Except Stop Target :=
  let g := s.gangAt (s.teamAt u).gang
  let off := ea - windowBase
  let plain : Bool := match a with | .atomic => false | .wait => false | _ => true
  if off + n ≤ g.scratch then .ok (.scratch off)
  else if apertureV ≤ off && off < apertureV + g.vregs * g.tw * 4 then
    if !plain then .error (stopEnd .windowKind ea acc)
    else if (off - apertureV) % (4 * g.tw) + n ≤ 4 * g.tw then .ok (.vreg (off - apertureV)) else .error (stopEnd .pageNotPresent ea acc)
  else if apertureS ≤ off && off < apertureS + 512 then
    if !plain then .error (stopEnd .windowKind ea acc)
    else if (off - apertureS) % 8 + n ≤ 8 then .ok (.sreg (off - apertureS)) else .error (stopEnd .pageNotPresent ea acc)
  else .error (stopEnd .pageNotPresent ea acc)

/-- Step 2 of R182 for one element: its place, with the bits of its leaf set. -/
def State.target (s : State) (u : Nat) (a : Access) (acc : Byte) (ea n : Nat) : Res (State × Target) :=
  if inWindow ea then
    match s.localTarget u a acc ea n with
    | .error e => .error (e, s)
    | .ok t => .ok (s, t)
  else
    match s.translate ⟨some (s.coreOf u), some (s.teamAt u).gang⟩ (s.ctxOf u) ea a acc with
    | .error e => .error e
    | .ok (s1, leaf, pa) =>
      match s1.placeOf (s1.ctxOf u) ea leaf pa with
      | .error c => .error (stopEnd c ea acc, s1)
      | .ok p => .ok (s1, .mem ea leaf pa (s1.seenBy (s1.teamAt u).gang (s1.ctxOf u) ea leaf p))

/-- Step 1 of R182 for one element: range, then alignment. -/
def rangeCheck (acc : Byte) (ea n : Nat) : Option Stop :=
  if 2 ^ 57 ≤ ea then some (stopEnd .pageNotPresent ea acc)
  else if ea % n ≠ 0 then some (stopEnd .misalignment ea acc)
  else none

/-- R182 over the lanes of an access, in ascending order: the places of all of them, or the deciding stop. -/
def State.targets (s : State) (u : Nat) (a : Access) (acc : Byte) (lanes : List (Nat × DWord)) (n : Nat) :
    Res (State × List (Nat × Target)) :=
  match lanes.findSome? (fun p => rangeCheck acc p.2.toNat n) with
  | some e => .error (e, s)
  | none =>
    lanes.foldl (fun (r : Res (State × List (Nat × Target))) p =>
      match r with
      | .error e => .error e
      | .ok (s, ts) =>
        match s.target u a acc p.2.toNat n with
        | .error e => .error e
        | .ok (s1, t) => .ok (s1, ts ++ [(p.1, t)])) (.ok (s, []))

/-! ### A team's reads and writes -/

/-- What an access of home 3 sends home first: the issuing core's own dirty copies of the words, which its L1 then gives up (R167). -/
def State.ownWordsHome (s : State) (core : Nat) (p : Place) (n : Nat) (acc : Byte) (path : Path) : Res State :=
  match p, path.cached with
  | .home pa, false => s.evictWords core pa n acc
  | _, _ => .ok s

/-- Bytes read at home, with the dirty words that the issuing core's L1 holds for the context in their place: a REL at core scope makes
the team's stores visible to its engine commands without moving data (R196, R199). -/
def State.overlay (s : State) (core ctx pa : Nat) (bs : List Byte) : List Byte :=
  match (s.coreAt core).line (pa / 128) with
  | none => bs
  | some l =>
    if l.ctx ≠ ctx then bs
    else (List.range bs.length).map (fun i =>
      if l.dirty.getLsbD ((pa % 128 + i) / 4) then (l.bytes (pa % 128 + i) 1).getD 0 0 else bs.getD i 0)

/-- Which bytes read at a place lie in poisoned words (R175); a word that the overlay replaces is poisoned as the L1's copy is. -/
def State.poisonAt (s : State) (core ctx : Nat) (p : Place) (n : Nat) : List Bool :=
  (List.range n).map (fun i => match p with
    | .home pa =>
      (match (s.coreAt core).line ((pa + i) / 128) with
       | some l => if l.ctx = ctx && l.dirty.getLsbD ((pa + i) % 128 / 4) then l.bad.getLsbD ((pa + i) % 128 / 4) else s.mem.poisoned (pa + i) 1
       | none => s.mem.poisoned (pa + i) 1)
    | .scratch g off => (s.gangAt g).poisoned (off + i) 1
    | .window sl slot off => s.windowPoisoned sl slot (off + i) 1
    | _ => false)


/-- A read at its place in home order; a poisoned word is consumed (R175). -/
def State.readHome (s : State) (va : Nat) (p : Place) (n : Nat) (path : Path) : Res (State × List Byte) :=
  match p with
  | .home pa => if s.mem.poisoned pa n then .error (.poison (BitVec.ofNat 64 va), s) else s.readPlace p n path
  | .scratch g off => if (s.gangAt g).poisoned off n then .error (.poison (BitVec.ofNat 64 va), s) else s.readPlace p n path
  | .window sl slot off => if s.windowPoisoned sl slot off n then .error (.poison (BitVec.ofNat 64 va), s) else s.readPlace p n path
  | _ => s.readPlace p n path

/-! ### The replay auditor (R375; log 69)

A replay's writes outside its own scratchpad are kept in its gang, by physical address, and its reads put them over what memory holds. -/

/-- Bytes read by a replay's gang at a physical address, with those that it has written in their place. -/
def Gang.overWritten (g : Gang) (pa : Nat) (bs : List Byte) : List Byte := bs.mapIdx (fun i b => (g.written.find (pa + i)).getD b)

/-- A read of a replay's gang at its place: a poisoned word that it has not written whole is consumed. -/
def State.replayRead (s : State) (gid va : Nat) (p : Place) (n : Nat) (path : Path) : Res (State × List Byte) :=
  match p with
  | .home pa =>
    let g := s.gangAt gid
    if (List.range n).any (fun i => (g.written.find (pa + i)).isNone && s.mem.poisoned (pa + i) 1) then .error (.poison (BitVec.ofNat 64 va), s)
    else
      match s.readPlace p n path with
      | .error e => .error e
      | .ok (s1, bs) => .ok (s1, g.overWritten pa bs)
  | _ => s.readHome va p n path

/-- A write of a replay's gang: kept in the gang, or in its own scratchpad. One to another place takes no effect: it seals the interval, and the audit
is abandoned. -/
def State.replayWrite (s : State) (gid : Nat) (p : Place) (bs : List Byte) : State :=
  match p with
  | .home pa => s.mapGang gid (fun g => { g with
      written := (List.range bs.length).foldl (fun (m : Map Byte) i => m.set (pa + i) (bs.getD i 0)) g.written })
  | .scratch g off => if g = gid then s.mapGang gid (fun x => x.store off bs) else s.mapGang gid (fun x => { x with isSealed := true })
  | _ => s.mapGang gid (fun x => { x with isSealed := true })

/-! ### Through the L1 and past it -/

/-- A line of a core's L1 stored with the rank that an access gives it (R166). -/
def State.putLine (s : State) (core : Nat) (l : L1Line) (rank : Nat) : State := s.mapCore core (fun c => c.setLine { l with rank := rank })

/-- A line filled into the L1 of a core for a gang: one of the lines that R354 counts, and a miss of R356. -/
def State.countFill (s : State) (gid : Nat) : State := (s.mapGang gid (fun g => { g with lines := g.lines + 1 })).count gid 4 1

/-- A read through the L1 of a core (R168): missing words are filled through the slice of its die. -/
def State.readCached (s : State) (core gid ctx va pa n : Nat) (path : Path) : Res (State × List Byte) :=
  match s.lineFor core ctx (pa / 128) (va / 128) with
  | .error e => .error e
  | .ok (s1, none) => s1.readHome va (.home pa) n path
  | .ok (s1, some l) =>
    let need := wordMask pa n
    let s2 := s1.count gid 3 (wordCount (l.valid &&& need))
    if l.valid &&& need = need then
      if l.bad &&& need ≠ 0#32 then .error (.poison (BitVec.ofNat 64 va), s2)
      else .ok (s2.putLine core l path.rank, l.bytes (pa % 128) n)
    else
      match s2.hostBlocks pa false true with
      | some e => .error (e, s2)
      | none =>
        let s3 := (s2.bring pa path).countFill gid
        let l1 := l.fill s3.mem
        if l1.valid &&& need = need && l1.bad &&& need = 0#32 then .ok (s3.putLine core l1 path.rank, l1.bytes (pa % 128) n)
        else .error (.poison (BitVec.ofNat 64 va), s3)

/-- A read of policy no-L1 where a failed write-back holds the line in the L1: the words come from the slice and are not filled, but for those that
the line holds dirty for the context (R166, R168, R218). -/
def State.readPast (s : State) (core ctx va pa n : Nat) (path : Path) : Res (State × List Byte) :=
  match s.readPlace (.home pa) n path with
  | .error e => .error e
  | .ok (s1, bs) =>
    if (s1.poisonAt core ctx (.home pa) n).any (fun b => b) then .error (.poison (BitVec.ofNat 64 va), s1) else .ok (s1, s1.overlay core ctx pa bs)

/-- The bytes that a team's load reads at a place (R161, R165 to R168, R187). -/
def State.readTarget (s : State) (u : Nat) (t : Target) (n : Nat) (policy : BitVec 2) : Res (State × List Byte) :=
  let gid := (s.teamAt u).gang
  let g := s.gangAt gid
  match t with
  | .scratch off =>
    if g.poisoned off n then .error (.poison (BitVec.ofNat 64 (windowBase + off)), s) else .ok (s, g.scratchpad.read off n)
  | .vreg off =>
    if (s.teamAt u).badVector g.tw off n then .error (.poison (BitVec.ofNat 64 (windowBase + apertureV + off)), s)
    else .ok (s, (List.range n).map (fun i => (s.teamAt u).regs.apertureByte g.tw (off + i)))
  | .sreg off =>
    if (s.teamAt u).badScalar off n then .error (.poison (BitVec.ofNat 64 (windowBase + apertureS + off)), s)
    else .ok (s, (List.range n).map (fun i => ((s.teamAt u).regs.sreg ((off + i) / 8)).extractLsb' (8 * ((off + i) % 8)) 8))
  | .mem va leaf pa place =>
    let core := s.coreOf u
    let ctx := s.ctxOf u
    let path := s.pathOf (some core) ctx leaf pa policy
    if g.replay then s.replayRead gid va place n path
    else if !path.cached then
      match s.ownWordsHome core place n 0x01 path with
      | .error e => .error e
      | .ok s1 => s1.readHome va place n path
    else if policy = 3 then
      match s.passL1 core pa 0x01 with
      | .error e => .error e
      | .ok (s1, true) => s1.readHome va place n path
      | .ok (s1, false) => s1.readPast core ctx va pa n path
    else s.readCached core gid ctx va pa n path

/-- The signature of the replay auditor over bytes written (R374). -/
def auditSum (va : Nat) (bs : List Byte) : DWord :=
  (List.range bs.length).foldl (fun (x : DWord) i =>
    x + ((BitVec.ofNat 64 (va + i) * 0xC2B2AE3D27D4EB4F#64) ^^^
      (((bs.getD i 0).setWidth 64 + 1) * 0x9E3779B97F4A7C15#64))) 0

/-- A sampled gang's signature over bytes that it writes outside its local window (R374). -/
def State.audited (s : State) (g va : Nat) (bs : List Byte) : State :=
  if (s.gangAt g).sampled && !inWindow va then s.mapGang g (fun x => { x with audit := x.audit + auditSum va bs }) else s

/-- The gang's rollback interval sealed (R372). -/
def State.sealInterval (s : State) (g : Nat) : State :=
  if (s.gangAt g).isSealed then s else s.mapGang g (fun x => { x with isSealed := true })

/-- Whether a store to a place seals the interval: an apply window or hub register space (R372). -/
def Place.seals (p : Place) : Bool := match p with | .hub _ => true | .window _ _ _ => true | _ => false

/-- A write of a team that does not go to an L1 (R167, R168): own dirty copies of the words are sent first. -/
def State.writeUncached (s : State) (u : Nat) (core ctx va : Nat) (place : Place) (bs : List Byte) (path : Path) : Res State :=
  match s.ownWordsHome core place bs.length 0x02 path with
  | .error e => .error e
  | .ok s1 => s1.writePlace ctx va (.team u) place bs [] path

/-- A store of a team through the L1 of its core (R168): whole words, and bytes of valid words, stay dirty in the L1; other bytes go home. -/
def State.writeCached (s : State) (u core gid ctx va pa : Nat) (place : Place) (bs : List Byte) (path : Path) : Res State :=
  let n := bs.length
  let need := wordMask pa n
  let home (s : State) : Res State := s.writePlace ctx va (.team u) place bs [] path
  if n < 4 && ((s.coreAt core).line (pa / 128)).isNone then home s
  else
    match s.lineFor core ctx (pa / 128) (va / 128) with
    | .error e => .error e
    | .ok (s1, none) => home s1
    | .ok (s1, some l) =>
      if 4 ≤ n || l.valid &&& need = need then
        let s2 := if l.valid = 0#32 then s1.count gid 4 1 else s1.count gid 3 (wordCount (l.valid &&& need))
        .ok (s2.putLine core { l.write s2.tick (pa % 128) bs with vline := va / 128 } path.rank)
      else home s1

/-- A store of policy no-L1 where a failed write-back holds the line in the L1, word by word: a word that the line holds dirty for the context is
replaced there, and any other goes to the slice only (R166, R168, R218). -/
def State.writePast (s : State) (u core ctx va pa : Nat) (bs : List Byte) (path : Path) : Res State :=
  (List.range ((pa % 4 + bs.length + 3) / 4)).foldl (fun (r : Res State) i =>
    match r with
    | .error e => .error e
    | .ok s =>
      let lo := if i = 0 then 0 else 4 * i - pa % 4
      let part := (bs.take (4 * (i + 1) - pa % 4)).drop lo
      match ((s.coreAt core).line (pa / 128)).filter (fun l => l.ctx = ctx && l.dirty.getLsbD ((pa + lo) % 128 / 4)) with
      | some _ => .ok (s.mapCore core (fun c => c.mapLine (pa / 128) (fun l => l.write s.tick ((pa + lo) % 128) part)))
      | none => s.writePlace ctx (va + lo) (.team u) (.home (pa + lo)) part [] path) (.ok s)

/-- A store of a team performed at a place (R103, R165 to R168, R187). -/
def State.writeTarget (s : State) (u : Nat) (t : Target) (bs : List Byte) (policy : BitVec 2) : Res State :=
  let gid := (s.teamAt u).gang
  let g := s.gangAt gid
  match t with
  | .scratch off => .ok (s.mapGang gid (fun x => x.store off bs))
  | .vreg off => .ok (s.mapTeam u (fun x => { x with
      regs := x.regs.setAperture g.tw off bs, bad := x.bad.filter (fun b => !b.coveredBy g.tw true off bs.length) }))
  | .sreg off => .ok (s.mapTeam u (fun x => { x with
      regs := x.regs.setScalarAperture off bs, bad := x.bad.filter (fun b => !b.coveredBy g.tw false off bs.length) }))
  | .mem va leaf pa place =>
    let core := s.coreOf u
    let ctx := s.ctxOf u
    let s0 := s.audited gid va bs
    let s1 := if place.seals then s0.sealInterval gid else s0
    let path := s1.pathOf (some core) ctx leaf pa policy
    if g.replay then .ok (s1.replayWrite gid place bs)
    else if !path.cached then s1.writeUncached u core ctx va place bs path
    else if policy = 3 then
      match s1.passL1 core pa 0x02 with
      | .error e => .error e
      | .ok (s2, true) => s2.writePlace ctx va (.team u) place bs [] path
      | .ok (s2, false) => s2.writePast u core ctx va pa bs path
    else s1.writeCached u core gid ctx va pa place bs path

/-- The lanes of a team's load, in ascending order. -/
def State.readLanes (s : State) (u n : Nat) (policy : BitVec 2) (ts : List (Nat × Target)) : Res (State × List (Nat × List Byte)) :=
  ts.foldl (fun (r : Res (State × List (Nat × List Byte))) p =>
    match r with
    | .error e => .error e
    | .ok (s, out) =>
      match s.readTarget u p.2 n policy with
      | .error e => .error e
      | .ok (s1, bs) => .ok (s1, out ++ [(p.1, bs)])) (.ok (s, []))

/-- The lanes of a team's store, in ascending order (R187). -/
def State.writeLanes (s : State) (u : Nat) (policy : BitVec 2) (ts : List (Nat × Target × List Byte)) : Res State :=
  ts.foldl (fun (r : Res State) p =>
    match r with
    | .error e => .error e
    | .ok s => s.writeTarget u p.2.1 p.2.2 policy) (.ok s)

/-! ### Engine accesses (R199, R210, R228) -/

/-- A byte range cut at the boundaries of 128-byte lines: offset and length of each run, in ascending order. -/
def lineRuns (va n : Nat) : List (Nat × Nat) :=
  ((List.range (n / 128 + 2)).filterMap (fun i =>
    let lo := max va (va / 128 * 128 + 128 * i)
    let hi := min (va + n) (va / 128 * 128 + 128 * i + 128)
    if lo < hi then some (lo - va, hi - lo) else none))

/-- The place of a run of an engine's access under its gang's local window and its context's translations, and its path (R103, R164, R219,
R224). `core` is the core whose engine it is, if it is one's. -/
def State.enginePlace (s : State) (core : Option Nat) (gid ctx : Nat) (a : Access) (acc : Byte) (va n : Nat) : Res (State × Place × Path) :=
  if inWindow va then
    let off := va - windowBase
    let g := s.gangAt gid
    if off + n ≤ g.scratch then .ok (s, .scratch gid off, .uncached)
    else if (apertureV ≤ off && off < apertureV + g.vregs * g.tw * 4) || (apertureS ≤ off && off < apertureS + 512) then
      .error (stopEnd .windowKind va acc, s)
    else .error (stopEnd .pageNotPresent va acc, s)
  else
    match s.translate .agent ctx va a acc with
    | .error e => .error e
    | .ok (s1, leaf, pa) =>
      match s1.placeOf ctx va leaf pa with
      | .error c => .error (stopEnd c va acc, s1)
      | .ok p => .ok (s1, s1.seenBy gid ctx va leaf p, s1.pathOf core ctx leaf pa 0)

/-- The core whose die's slices an engine goes through; 192 is the command processors, which are at the hub. -/
def coreCache (core : Nat) : Option Nat := if core < 192 then some core else none

/-- A run of an engine's read at its place: the bytes, and which of them are poisoned. A line that it reads from slices and DRAM is one that R354
counts. -/
def State.engineRun (s : State) (core gid ctx : Nat) (p : Place) (n : Nat) (acc : Byte) (path : Path) : Res (State × List (Byte × Bool)) :=
  let g := s.gangAt gid
  match (if g.replay then .ok s else s.ownWordsHome core p n acc path : Res State) with
  | .error e => .error e
  | .ok s1 =>
    match s1.readPlace p n path with
    | .error e => .error e
    | .ok (s2, bs) =>
      match p, g.replay with
      | .home pa, true => .ok (s2, (g.overWritten pa bs).mapIdx (fun i b => (b, (g.written.find (pa + i)).isNone && s2.mem.poisoned (pa + i) 1)))
      | .home pa, false =>
        .ok (if core < 192 then s2.mapGang gid (fun g => { g with lines := g.lines + 1 }) else s2,
          (s2.overlay core ctx pa bs).zip (s2.poisonAt core ctx p n))
      | _, _ => .ok (s2, bs.zip (s2.poisonAt core ctx p n))

/-- An engine's read of a byte range, run by run: the bytes, and which of them are poisoned. -/
def State.engineReadMarked (s : State) (core gid ctx va n : Nat) (acc : Byte) : Res (State × List (Byte × Bool)) :=
  (lineRuns va n).foldl (fun (r : Res (State × List (Byte × Bool))) run =>
    match r with
    | .error e => .error e
    | .ok (s, out) =>
      match s.enginePlace (coreCache core) gid ctx .read acc (va + run.1) run.2 with
      | .error e => .error e
      | .ok (s0, p, path) =>
        match s0.engineRun core gid ctx p run.2 acc path with
        | .error e => .error e
        | .ok (s1, bs) => .ok (s1, out ++ bs)) (.ok (s, []))

/-- An engine's read of bytes that it consumes: a poisoned word stops it, with the word's address (R175, R317, R359). -/
def State.engineRead (s : State) (core gid ctx va n : Nat) (acc : Byte) : Res (State × List Byte) :=
  match s.engineReadMarked core gid ctx va n acc with
  | .error e => .error e
  | .ok (s1, bs) =>
    match bs.findIdx? (fun b => b.2) with
    | some i => .error (.poison (BitVec.ofNat 64 (va + i) &&& ~~~3), s1)
    | none => .ok (s1, bs.map (fun b => b.1))

/-- The matching words of a core's L1 given up before an engine of the core writes memory: dirty words are sent first, and words that
cannot be sent stay held (R199). -/
def State.giveUpWords (s : State) (core pa n : Nat) : Res State :=
  match s.evictWords core pa n 0x20 with
  | .ok s1 => .ok s1
  | .error (.wait r, s1) => .error (.wait r, s1)
  | .error (_, s1) => .ok (s1.mapCore core (fun c => c.mapLine (pa / 128) (fun l => { l.drop (wordMask pa n &&& ~~~l.dirty) with held := true })))

/-- What an engine of a core does before it writes a place: the core's L1 gives up the words, and a write to a window seals the interval of its
gang (R199, R372). -/
def State.beforeWrite (s : State) (core : Option Nat) (gid : Nat) (p : Place) (n : Nat) : Res State :=
  match core, p with
  | some c, .home pa => s.giveUpWords c pa n
  | some _, _ => .ok (if p.seals then s.sealInterval gid else s)
  | none, _ => .ok s

/-- An engine's write of a byte range, each run within a line one write (R228). `core` is the core whose engine it is, if it is one's; the
Boolean of a byte says whether it is poisoned. -/
def State.engineWriteMarked (s : State) (core : Option Nat) (gid ctx : Nat) (by_ : Writer) (va : Nat) (bs : List (Byte × Bool)) (acc : Byte) :
    Res State :=
  (lineRuns va bs.length).foldl (fun (r : Res State) run =>
    match r with
    | .error e => .error e
    | .ok s =>
      match s.enginePlace core gid ctx .write acc (va + run.1) run.2 with
      | .error e => .error e
      | .ok (s1, p, path) =>
        let part := (bs.drop run.1).take run.2
        if core.isSome && (s1.gangAt gid).replay then .ok (s1.replayWrite gid p (part.map (fun b => b.1)))
        else
        match s1.beforeWrite core gid p run.2 with
        | .error e => .error e
        | .ok s2 =>
          s2.writePlace ctx (va + run.1) by_ p (part.map (fun b => b.1))
            ((List.range part.length).filter (fun i => (part.getD i (0, false)).2)) path) (.ok s)

/-- An engine's write of sound bytes. -/
def State.engineWrite (s : State) (core : Option Nat) (gid ctx : Nat) (by_ : Writer) (va : Nat) (bs : List Byte) (acc : Byte) : Res State :=
  s.engineWriteMarked core gid ctx by_ va (bs.map (fun b => (b, false))) acc

end Sys2Proof.Machine
end

