-- ==== Sys2Proof/Machine/Numbers.lean ====
section
/-! DEFINITION. Exact values and the number formats of R76, R77, R85 and R87: decoding into exact values, exact sums, products and
quotients, and comparison. -/
namespace Sys2Proof.Machine

/-- An exact value as R80 takes it: NaN, an infinity, a signed zero, or the rational ±num/den with num and den positive. -/
inductive Exact where
  | nan
  | inf (neg : Bool)
  | zero (neg : Bool)
  | fin (neg : Bool) (num den : Nat)
  deriving DecidableEq, Repr

/-- A binary floating-point format: widths of the exponent and the fraction (R77). -/
structure Fmt where
  eb : Nat
  fb : Nat
  deriving DecidableEq, Repr

/-- FP32 (R77). -/
def Fmt.fp32 : Fmt := ⟨8, 23⟩

/-- FP16 (R77). -/
def Fmt.fp16 : Fmt := ⟨5, 10⟩

/-- BF16 (R77). -/
def Fmt.bf16 : Fmt := ⟨8, 7⟩

/-- The floating-point format of an element type; FP32 for the types that have none. -/
def fmtOf (t : ElemType) : Fmt :=
  match t with
  | .f16 => .fp16
  | .bf16 => .bf16
  | _ => .fp32

/-- The exponent bias. -/
def Fmt.bias (f : Fmt) : Nat := 2 ^ (f.eb - 1) - 1

/-- The encoding of +∞. -/
def Fmt.infBits (f : Fmt) : Nat := (2 ^ f.eb - 1) * 2 ^ f.fb

/-- The sign bit's weight. -/
def Fmt.signBit (f : Fmt) : Nat := 2 ^ (f.eb + f.fb)

/-- The canonical NaN (R77, R78). -/
def Fmt.canonical (f : Fmt) : Nat := f.infBits + 2 ^ (f.fb - 1)

/-- The value ±n · 2^e as an exact value. -/
def Exact.ofScaled (neg : Bool) (n : Nat) (e : Int) : Exact :=
  if n = 0 then .zero neg
  else if 0 ≤ e then .fin neg (n * 2 ^ e.toNat) 1
  else .fin neg n (2 ^ (-e).toNat)

/-- The exact value of an encoding (R77, R79). -/
def Fmt.decode (f : Fmt) (bits : Nat) : Exact :=
  let neg := decide (bits / f.signBit % 2 = 1)
  let e := bits / 2 ^ f.fb % 2 ^ f.eb
  let m := bits % 2 ^ f.fb
  if e = 2 ^ f.eb - 1 then (if m = 0 then .inf neg else .nan)
  else if e = 0 then .ofScaled neg m (1 - (f.bias : Int) - f.fb)
  else .ofScaled neg (2 ^ f.fb + m) ((e : Int) - f.bias - f.fb)

/-- Whether an encoding is a signalling NaN (R78). -/
def Fmt.isSignalling (f : Fmt) (bits : Nat) : Bool :=
  let e := bits / 2 ^ f.fb % 2 ^ f.eb
  let m := bits % 2 ^ f.fb
  e = 2 ^ f.eb - 1 && m ≠ 0 && m < 2 ^ (f.fb - 1)

/-- Whether the value is a NaN. -/
def Exact.isNan (x : Exact) : Bool := match x with | .nan => true | _ => false

/-- The value with its sign changed. -/
def Exact.neg (x : Exact) : Exact :=
  match x with
  | .nan => .nan
  | .inf s => .inf (!s)
  | .zero s => .zero (!s)
  | .fin s n d => .fin (!s) n d

/-- The magnitude. -/
def Exact.abs (x : Exact) : Exact :=
  match x with
  | .nan => .nan
  | .inf _ => .inf false
  | .zero _ => .zero false
  | .fin _ n d => .fin false n d

/-- The exact value of an integer over a positive denominator; `z` is the sign of a zero. -/
def Exact.ofRatio (z : Bool) (n : Int) (d : Nat) : Exact :=
  if n = 0 then .zero z else .fin (n < 0) n.natAbs d

/-- The exact value of an integer. -/
def Exact.ofInt (n : Int) : Exact := .ofRatio false n 1

/-- The numerator with its sign. -/
def signed (neg : Bool) (n : Nat) : Int := if neg then -(n : Int) else n

/-- The exact sum; `z` is the sign of an exact zero sum of operands with opposite signs, true under RDN (R142). -/
def Exact.add (z : Bool) (x y : Exact) : Exact :=
  match x, y with
  | .nan, _ => .nan
  | _, .nan => .nan
  | .inf a, .inf b => if a = b then .inf a else .nan
  | .inf a, _ => .inf a
  | _, .inf b => .inf b
  | .zero a, .zero b => if a = b then .zero a else .zero z
  | .zero _, .fin b n d => .fin b n d
  | .fin a n d, .zero _ => .fin a n d
  | .fin a n d, .fin b m e => .ofRatio z (signed a (n * e) + signed b (m * d)) (d * e)

/-- The exact product. -/
def Exact.mul (x y : Exact) : Exact :=
  match x, y with
  | .nan, _ => .nan
  | _, .nan => .nan
  | .inf a, .inf b => .inf (a != b)
  | .inf a, .fin b _ _ => .inf (a != b)
  | .fin a _ _, .inf b => .inf (a != b)
  | .inf _, .zero _ => .nan
  | .zero _, .inf _ => .nan
  | .zero a, .zero b => .zero (a != b)
  | .zero a, .fin b _ _ => .zero (a != b)
  | .fin a _ _, .zero b => .zero (a != b)
  | .fin a n d, .fin b m e => .fin (a != b) (n * m) (d * e)

/-- The exact quotient by a positive rational m/e. -/
def Exact.divBy (x : Exact) (m e : Nat) : Exact :=
  match x with
  | .fin a n d => .fin a (n * e) (d * m)
  | _ => x

/-- The exact product with a positive rational m/e. -/
def Exact.mulBy (x : Exact) (m e : Nat) : Exact :=
  match x with
  | .fin a n d => .fin a (n * m) (d * e)
  | _ => x

/-- Whether x < y; false when either is a NaN. The two zeros are equal. -/
def Exact.lt (x y : Exact) : Bool :=
  match x, y with
  | .nan, _ => false
  | _, .nan => false
  | .inf a, .inf b => a && !b
  | .inf a, _ => a
  | _, .inf b => !b
  | .zero _, .zero _ => false
  | .zero _, .fin b _ _ => !b
  | .fin a _ _, .zero _ => a
  | .fin a n d, .fin b m e => decide (signed a (n * e) < signed b (m * d))

/-- Whether the two values are equal as numbers; false when either is a NaN. -/
def Exact.eq (x y : Exact) : Bool := !x.isNan && !y.isNan && !x.lt y && !y.lt x

/-- Whether the value carries a minus sign. -/
def Exact.isNeg (x : Exact) : Bool :=
  match x with
  | .nan => false
  | .inf s => s
  | .zero s => s
  | .fin s _ _ => s

/-! ### Integers -/

/-- The value of the low bits of a lane or scalar read as an integer type of `w` bits (R76). -/
def intOf (signedType : Bool) (w n : Nat) : Int :=
  let m := n % 2 ^ w
  if signedType && decide (2 ^ w ≤ 2 * m) then (m : Int) - 2 ^ w else m

/-- The bits of an integer modulo 2^w (R76). -/
def wrap (w : Nat) (n : Int) : Nat := (n % (2 ^ w : Int)).toNat

/-- sat of R76. -/
def sat (signedType : Bool) (w : Nat) (n : Int) : Int :=
  let lo : Int := if signedType then -(2 ^ (w - 1) : Int) else 0
  let hi : Int := if signedType then 2 ^ (w - 1) - 1 else 2 ^ w - 1
  if n < lo then lo else if hi < n then hi else n

/-! ### DM8 and S10 -/

/-- The magnitude of a DM8 code below 0x80 in units of 2^−12 (R85). -/
def dm8Mag (c : Nat) : Nat :=
  if c = 0 then 0
  else if c = 1 then 1
  else if c < 4 then (if c = 2 then 2 ^ 22 else 2)
  else if c < 8 then (if c = 4 then 2 ^ 20 else if c = 5 then 2 ^ 21 else if c = 6 then 2 ^ 3 else 2 ^ 2)
  else
    let z := 6 - Nat.log2 c
    let fw := 4 - z
    let f := c % 2 ^ fw
    let m := c / 2 ^ fw % 2
    let h := c / 2 ^ (fw + 1) % 2
    let e : Nat :=
      if z = 0 then 12 + (c / 2 ^ 4 % 4) - 2
      else if h = 0 then 12 + 2 * z + m
      else 12 - (2 * z + 1 + m)
    (2 ^ fw + f) * 2 ^ e / 2 ^ fw

/-- The exact value of a DM8 code; NaR decodes to NaN (R85). -/
def dm8Decode (c : Nat) : Exact :=
  let c := c % 256
  if c = 0x80 then .nan
  else if c % 128 = 0 then .zero false
  else .fin (decide (128 ≤ c)) (dm8Mag (c % 128)) 4096

/-- What an S10 code stands for (R87). -/
inductive Scale where
  | zero
  | nan
  | value (num den : Nat)
  deriving DecidableEq, Repr

/-- The scale of an S10 code (R87). -/
def s10Decode (c : Nat) : Scale :=
  let e := c / 4 % 256
  let m := c % 4
  if e = 0 then .zero
  else if e = 255 then .nan
  else if 129 ≤ e then .value ((4 + m) * 2 ^ (e - 129)) 1
  else .value (4 + m) (2 ^ (129 - e))

/-- The exponent of the greatest power of two that is at most n/d. -/
def floorLog2 (n d : Nat) : Int :=
  let e : Int := (Nat.log2 n : Int) - Nat.log2 d
  let below : Bool := if 0 ≤ e then decide (n < d * 2 ^ e.toNat) else decide (n * 2 ^ (-e).toNat < d)
  if below then e - 1 else e

/-- toS10 of R88: the smallest scale that is at least the value. -/
def toS10 (x : Exact) : Nat :=
  match x with
  | .nan => 0x3FF
  | .zero _ => 0x000
  | .inf _ => 0x3FB
  | .fin _ n d =>
    let e := floorLog2 n d
    let num := if 0 ≤ e then n * 4 else n * 4 * 2 ^ (-e).toNat
    let den := if 0 ≤ e then d * 2 ^ e.toNat else d
    let up := (num + den - 1) / den
    let code : Int := (e + 127) * 4 + (up - 4)
    if code < 4 then 0x004 else if 0x3FB < code then 0x3FB else code.toNat

end Sys2Proof.Machine
end

