-- ==== Sys2Proof/Machine/Flags.lean ====
section
/-! DEFINITION. Rounding into a format with the flags of R79 to R82, the conversions of R84 and R86, and the floating-point operations
of R142 to R144 with the flags that each raises. -/
namespace Sys2Proof.Machine

/-- The flags of FFLAGS (R81): NV, DZ, OF, UF, NX in bits 4 to 0. -/
abbrev Flags := BitVec 5

/-- NV, invalid operation. -/
def flagNV : Flags := 16

/-- DZ, divide by zero. -/
def flagDZ : Flags := 8

/-- OF, overflow. -/
def flagOF : Flags := 4

/-- UF, underflow. -/
def flagUF : Flags := 2

/-- NX, inexact. -/
def flagNX : Flags := 1

/-- NV where the condition holds. -/
def invalidIf (b : Bool) : Flags := if b then flagNV else 0

/-- The rounding modes of R60. -/
inductive Rnd where
  | rne | rtz | rup | rdn
  deriving DecidableEq, Repr

/-- The rounding mode of a mode field (R60). -/
def Rnd.ofMode (m : BitVec 2) : Rnd :=
  match m.toNat with
  | 0 => .rne
  | 1 => .rtz
  | 2 => .rup
  | _ => .rdn

/-- Whether the quotient num/den, whose floor is `q`, rounds to q + 1 in the mode for a value of the sign (R80). -/
def roundsUp (mode : Rnd) (neg : Bool) (num den q : Nat) : Bool :=
  let r := num % den
  match mode with
  | .rne => decide (den < 2 * r) || (decide (2 * r = den) && decide (q % 2 = 1))
  | .rtz => false
  | .rup => !neg && decide (r ≠ 0)
  | .rdn => neg && decide (r ≠ 0)

/-- The multiple of 2^q nearest to n/d in the mode, as a count of 2^q, and whether it is exact. -/
def roundAt (mode : Rnd) (neg : Bool) (n d : Nat) (q : Int) : Nat × Bool :=
  let num := if 0 ≤ q then n else n * 2 ^ (-q).toNat
  let den := if 0 ≤ q then d * 2 ^ q.toNat else d
  let m := num / den
  (if roundsUp mode neg num den m then m + 1 else m, num % den = 0)

/-- RND of R80 with its flags: OF and NX on overflow, UF when the result is tiny after rounding and inexact, NX when inexact
(R79, R81, R82). -/
def rnd (f : Fmt) (mode : Rnd) (x : Exact) : Nat × Flags :=
  match x with
  | .nan => (f.canonical, 0)
  | .inf s => ((if s then f.signBit else 0) + f.infBits, 0)
  | .zero s => (if s then f.signBit else 0, 0)
  | .fin s n d =>
    let e := floorLog2 n d
    let emin : Int := 1 - (f.bias : Int)
    let ex := if e < emin then emin else e
    let (m, exact) := roundAt mode s n d (ex - f.fb)
    let bits := (ex - emin).toNat * 2 ^ f.fb + m
    let sign := if s then f.signBit else 0
    if f.infBits ≤ bits then
      let toInf := match mode with | .rne => true | .rtz => false | .rup => !s | .rdn => s
      (sign + (if toInf then f.infBits else f.infBits - 1), flagOF ||| flagNX)
    else
      let mu := (roundAt mode s n d (e - f.fb)).1
      let tiny := decide (e < emin) && !(decide (e = emin - 1) && decide (mu = 2 ^ (f.fb + 1)))
      (sign + bits, if exact then 0 else if tiny then flagUF ||| flagNX else flagNX)

/-- toDM8 of R86 with its flags; `snan` says that the operand is a signalling NaN. -/
def toDM8 (x : Exact) (snan : Bool) : Nat × Flags :=
  match x with
  | .nan => (0x80, invalidIf snan)
  | .zero _ => (0x00, 0)
  | .inf s => (if s then 0x82 else 0x02, flagOF ||| flagNX)
  | .fin s n d =>
    let sign := if s then 0x80 else 0
    if 1024 * d < n then (sign + 0x02, flagOF ||| flagNX)
    else if n * 8192 ≤ d then (0x00, flagUF ||| flagNX)
    else
      let a := n * 4096
      let lo := (List.range 128).foldl (fun c k => if dm8Mag k * d ≤ a && dm8Mag c < dm8Mag k then k else c) 0
      let hi := (List.range 128).foldl (fun c k => if a ≤ dm8Mag k * d && dm8Mag k < dm8Mag c then k else c) 2
      let mid := (dm8Mag lo + dm8Mag hi) * d
      let c :=
        if 2 * a < mid then lo
        else if mid < 2 * a then hi
        else if lo % 2 = 0 && hi % 2 = 1 then lo
        else hi
      let exact := decide (dm8Mag c * d = a)
      (if c = 0 then 0 else sign + c,
        if exact then 0 else if a < d then flagUF ||| flagNX else flagNX)

/-- Floating point to an integer type of `w` bits (R84): the bits, and NV outside the range or for an infinity or NaN, else NX when
the value is not an integer. -/
def toInt (signedType : Bool) (w : Nat) (mode : Rnd) (x : Exact) : Int × Flags :=
  match x with
  | .nan => (0, flagNV)
  | .inf s => (sat signedType w (if s then -(2 ^ 64 : Int) else 2 ^ 64), flagNV)
  | .zero _ => (0, 0)
  | .fin s n d =>
    let (m, exact) := roundAt mode s n d 0
    let v := signed s m
    let r := sat signedType w v
    if r ≠ v then (r, flagNV) else (r, if exact then 0 else flagNX)

/-! ### Operations of class 4 -/

/-- Whether a sum of the mode gives −0 for an exact zero of opposite signs (R142). -/
def Rnd.zeroSign (m : Rnd) : Bool := m = .rdn

/-- The result of an arithmetic operation whose exact value is `x` on operands decoded as `ops`: NV when a signalling NaN is among them or
when a NaN arises from operands that are none (R78, R142). -/
def arith (f : Fmt) (mode : Rnd) (x : Exact) (anyNan signalling : Bool) : Nat × Flags :=
  let (bits, fl) := rnd f mode x
  (bits, fl ||| invalidIf (signalling || (x.isNan && !anyNan)))

/-- FADD (R142). -/
def fadd (f : Fmt) (mode : Rnd) (a b : Nat) : Nat × Flags :=
  let x := f.decode a
  let y := f.decode b
  arith f mode (x.add mode.zeroSign y) (x.isNan || y.isNan) (f.isSignalling a || f.isSignalling b)

/-- FSUB (R142). -/
def fsub (f : Fmt) (mode : Rnd) (a b : Nat) : Nat × Flags :=
  let x := f.decode a
  let y := f.decode b
  arith f mode (x.add mode.zeroSign y.neg) (x.isNan || y.isNan) (f.isSignalling a || f.isSignalling b)

/-- FMUL (R142). -/
def fmul (f : Fmt) (mode : Rnd) (a b : Nat) : Nat × Flags :=
  let x := f.decode a
  let y := f.decode b
  arith f mode (x.mul y) (x.isNan || y.isNan) (f.isSignalling a || f.isSignalling b)

/-- FFMA: a × b + d with one rounding; NV for 0 × ∞ even when d is a quiet NaN (R142). -/
def ffma (f : Fmt) (mode : Rnd) (a b d : Nat) : Nat × Flags :=
  let x := f.decode a
  let y := f.decode b
  let z := f.decode d
  let p := x.mul y
  let invalidProduct := p.isNan && !x.isNan && !y.isNan
  let r := arith f mode (p.add mode.zeroSign z) (x.isNan || y.isNan || z.isNan)
    (f.isSignalling a || f.isSignalling b || f.isSignalling d)
  (r.1, r.2 ||| invalidIf invalidProduct)

/-- Whether x counts as less than y in FMIN and FMAX, where −0 is less than +0 (R143). -/
def Exact.below (x y : Exact) : Bool :=
  match x, y with
  | .zero a, .zero b => a && !b
  | _, _ => x.lt y

/-- FMIN and FMAX (R143): the canonical NaN for a NaN operand, with NV for a signalling one; else the operand itself. -/
def fminmax (f : Fmt) (isMax : Bool) (a b : Nat) : Nat × Flags :=
  let x := f.decode a
  let y := f.decode b
  if x.isNan || y.isNan then (f.canonical, invalidIf (f.isSignalling a || f.isSignalling b))
  else if isMax then (if x.below y then b else a, 0)
  else (if y.below x then b else a, 0)

/-- FCMP with the relation of a variant (R144). -/
def fcmp (f : Fmt) (rel : Nat) (a b : Nat) : Bool × Flags :=
  let x := f.decode a
  let y := f.decode b
  let anyNan := x.isNan || y.isNan
  let snan := f.isSignalling a || f.isSignalling b
  match rel with
  | 0 => (x.eq y, invalidIf snan)
  | 1 => (!x.eq y, invalidIf snan)
  | 2 => (x.lt y, invalidIf anyNan)
  | 3 => (!anyNan && !y.lt x, invalidIf anyNan)
  | 4 => (y.lt x, invalidIf anyNan)
  | 5 => (!anyNan && !x.lt y, invalidIf anyNan)
  | _ => (anyNan, invalidIf snan)

/-! ### Conversions -/

/-- The exact value of the low bits of a lane read as a type, and whether it is a signalling NaN (R135, R146). -/
def exactOf (t : ElemType) (bits : Nat) : Exact × Bool :=
  match t with
  | .f16 => (Fmt.fp16.decode (bits % 65536), Fmt.fp16.isSignalling (bits % 65536))
  | .bf16 => (Fmt.bf16.decode (bits % 65536), Fmt.bf16.isSignalling (bits % 65536))
  | .f32 => (Fmt.fp32.decode (bits % 4294967296), Fmt.fp32.isSignalling (bits % 4294967296))
  | .d8 => (dm8Decode bits, false)
  | _ => (.ofInt (intOf t.isSigned (8 * t.size) bits), false)

/-- A 32-bit lane that holds an integer of the type: sign-extended for a signed type, zero-extended otherwise (R135). -/
def laneOfInt (t : ElemType) (v : Int) : Word32 :=
  BitVec.ofNat 32 (wrap 32 (intOf t.isSigned (8 * t.size) (wrap (8 * t.size) v)))

/-- CVT and CVTS of one lane (R146, R84, R86). `saturate` is CVTS. -/
def convert (saturate : Bool) (src dst : ElemType) (mode : Rnd) (a : Word32) : Word32 × Flags :=
  let (x, snan) := exactOf src a.toNat
  if dst = .d8 then
    let r := toDM8 x snan
    (BitVec.ofNat 32 r.1, r.2)
  else if dst.isInt then
    if src.isInt then
      let v := intOf src.isSigned (8 * src.size) a.toNat
      (laneOfInt dst (if saturate then sat dst.isSigned (8 * dst.size) v else v), 0)
    else
      let r := toInt dst.isSigned (8 * dst.size) mode x
      (laneOfInt dst r.1, r.2)
  else
    let r := rnd (fmtOf dst) mode x
    (BitVec.ofNat 32 r.1, r.2 ||| invalidIf snan)

/-- Whether a lane holds a NaN of a type, and a signalling one. -/
def laneNan (t : ElemType) (a : Word32) : Bool := (exactOf t a.toNat).1.isNan

end Sys2Proof.Machine
end

