-- ==== Sys2Proof/Machine/OpStore.lean ====
section
/-! DEFINITION. The operators of a slice: plot conversion, installation, the writes and fires of vector slots, removal (R12, R94, R178,
R222 to R237, R403), and the plots of beds (R240, R242). -/
namespace Sys2Proof.Machine

/-! ### Plots (R12) -/

/-- The plots of a bit field, in ascending order. -/
def plotsOf (b : Byte) : List Nat := (List.range 8).filter (fun p => b.getLsbD p)

/-- Whether no operator slot's assignment other than `slot`, and no bed, holds a plot (R222, R240). -/
def Slice.plotFree (c : Slice) (slot p : Nat) : Bool :=
  !(c.slots.any (fun q => q.1 ≠ slot && (q.2.valid || q.2.op.isSome) && q.2.plots.getLsbD p)) && !(c.beds.any (fun q => q.2.plots.getLsbD p))

/-- The pinned lines of a slice (R165). -/
def Mem.pinnedLines (m : Mem) (slice : Nat) : Nat := (m.copies.filter (fun p => p.1 % 128 = slice && p.2.pinned)).length

/-- Whether a slice refuses the conversion of `n` more plots: never without pinned lines, always where they exceed the 8,192 lines of each
plot left in cache mode, and between the two as the implementation's ways decide (R12; log 14). -/
def State.refusesPlots (s : State) (slice n : Nat) : Bool :=
  let left := (s.sliceAt slice).cachePlots.length - n
  let pinned := s.mem.pinnedLines slice
  pinned ≠ 0 && (8192 * left < pinned || Config.tooFewWays left pinned)

/-- A line of a plot that leaves cache mode: a pinned one moves to another cache plot, any other is evicted (R12, R243). -/
def State.leavePlot (s : State) (line slice : Nat) (c : SliceLine) : State :=
  match if c.pinned then s.roomIn slice else none with
  | some (s1, p) => s1.mapMem (fun m => m.setCopy line slice { m.copy line slice with plot := p })
  | none => s.mapMem (fun m => m.evictCopy line slice)

/-- Plots of a slice put in a mode. The lines of plots that leave cache mode are written back and leave them, and those plots take no line from
then on (R12, R174, R243). -/
def State.setPlots (s : State) (slice : Nat) (ps : List Nat) (mode : PlotMode) : State :=
  let s1 := s.mapSlice slice (fun c => { c with modes := ps.foldl (fun (m : Map PlotMode) p => m.put .cache p mode) c.modes })
  let gone := (s1.mem.linesOf slice).filter (fun p => !((s1.sliceAt slice).cachePlots.contains p.2.plot))
  gone.foldl (fun (s : State) p => s.leavePlot (p.1 / 128) slice p.2) s1

/-- A slot of a slice changed. -/
def State.mapSlot (s : State) (slice n : Nat) (f : OpSlot → OpSlot) : State :=
  s.mapSlice slice (fun c => { c with slots := c.slots.set n (f (c.slot n)) })

/-! ### Exact sums (R91, R94) -/

/-- The exact sum of a list, signed zeros and infinities included. -/
def sumExact (xs : List Exact) : Exact :=
  match xs with
  | [] => .zero false
  | x :: r => r.foldl (fun a b => a.add false b) x

/-- One rounding of an FP32 accumulator plus an exact value (R91, R94). -/
def accumulate (acc : Nat) (p : Exact) : Nat := (rnd .fp32 .rne ((Fmt.fp32.decode acc).add false p)).1

/-- A list cut into groups of at most `n`. -/
def groupsOf {α : Type} (n fuel : Nat) (xs : List α) : List (List α) :=
  match fuel with
  | 0 => []
  | f + 1 => if xs.isEmpty then [] else xs.take n :: groupsOf n f (xs.drop n)

/-- An FP32 sum of products in groups of four, one rounding for each group (R94). -/
def quadSum (acc : Nat) (ps : List (Exact × Exact)) : Nat :=
  (groupsOf 4 ps.length ps).foldl (fun (a : Nat) g => accumulate a (sumExact (g.map (fun p => p.1.mul p.2)))) acc

/-! ### Vector slots (R225 to R230) -/

/-- The size in bytes of the layout of R223. -/
def operatorBytes (ein eout m n sl : Nat) : Nat := m * n * ein + sl * up128 (n * ein) + sl * up128 (m * eout + 8)

/-- The element at index `i` of a byte image. -/
def elementOf (t : ElemType) (bs : Memory) (i : Nat) : Nat := leNat (bs.read (i * t.size) t.size)

/-- An apply slot after a fire or installation. -/
def ApplySlot.none : ApplySlot := ⟨[], [], 0, []⟩

/-- The apply slot of a vector slot. -/
def Operator.applySlot (o : Operator) (v : Nat) : ApplySlot := o.apply.get .none v

/-- The result slot of a vector slot. -/
def Operator.resultSlot (o : Operator) (v : Nat) : ResultSlot := o.result.get .none v

/-- Whether an element of an apply slot is written: all of its bytes have arrived (R227). -/
def ApplySlot.written (a : ApplySlot) (ein n : Nat) : Bool := (List.range ein).all (fun b => a.arrived.byte (n * ein + b) = 1)

/-- The elements written since the slot last fired. -/
def Operator.filledElements (o : Operator) (v : Nat) : Nat :=
  ((List.range o.n).filter (fun n => (o.applySlot v).written o.ein n)).length

/-- A write applied to an apply slot (R227): the overwrite count gains one for each element already written that it names. A byte that it
replaces is poisoned as the write's is (R175, R237). -/
def ApplySlot.take (a : ApplySlot) (ein n : Nat) (bs : List (Nat × Byte)) (bad : List Nat) : ApplySlot :=
  let inSlot := bs.filter (fun p => p.1 < n * ein)
  let again := ((List.range n).filter (fun e => a.written ein e && inSlot.any (fun p => p.1 / ein = e))).length
  { bytes := inSlot.foldl (fun (m : Memory) p => m.put p.1 p.2) a.bytes
    arrived := inSlot.foldl (fun (m : Memory) p => m.put p.1 1) a.arrived
    overwrites := min (a.overwrites + again) 65535
    bad := a.bad.filter (fun b => !inSlot.any (fun p => p.1 = b)) ++ bad.filter (fun b => b < n * ein) }

/-- The snapshots of a vector slot that are not yet computed. -/
def snapshotsOf (c : Slice) (slot v : Nat) : Nat := (c.fires.filter (fun f => f.slot = slot && f.vslot = v)).length

/-- A write at window offset `off` as the bytes of a vector slot, and which of them are poisoned. -/
def Operator.slotBytes (o : Operator) (w : ApplyWrite) : Nat × List (Nat × Byte) × List Nat :=
  let base := w.offset % o.astride
  (w.offset / o.astride, w.bytes.map (fun p => (base + p.1, p.2)), w.bad.map (fun b => base + b))

/-- The apply slot that a write leaves (R227). -/
def Operator.taken (o : Operator) (w : ApplyWrite) : ApplySlot :=
  let v := o.slotBytes w
  (o.applySlot v.1).take o.ein o.n v.2.1 v.2.2

/-- Whether a write leaves every element of its vector slot written (R227). -/
def Operator.completes (o : Operator) (w : ApplyWrite) : Bool :=
  (List.range o.n).all (fun n => (o.taken w).written o.ein n)

/-- The write at `index` of the slice's writes applied (R227, R229): a completed fill takes its snapshot, and the team that made the write
has filled the slot (R213). -/
def State.applyWrite (s : State) (slice index : Nat) : State :=
  let c := s.sliceAt slice
  match c.writes[index]? with
  | none => s
  | some w =>
    let rest := c.writes.eraseIdx index
    match (c.slot w.slot).op with
    | none => s.mapSlice slice (fun c => { c with writes := rest })
    | some o =>
      let v := (o.slotBytes w).1
      let a := o.taken w
      if o.completes w then
        let gen := (o.resultSlot v).fires + snapshotsOf c w.slot v + 1
        let filled := match w.writer with
          | .team u => o.filled.set (64 * u + v) gen
          | _ => o.filled
        let o1 := { o with apply := o.apply.set v .none, filled := filled }
        let f : Snapshot := ⟨w.slot, v, a.bytes, a.overwrites, !a.bad.isEmpty, 0⟩
        s.mapSlice slice (fun c => { c with
          writes := rest
          fires := c.fires ++ [f]
          slots := c.slots.set w.slot { c.slot w.slot with op := some o1 } })
      else
        s.mapSlice slice (fun c => { c with
          writes := rest
          slots := c.slots.set w.slot { c.slot w.slot with op := some { o with apply := o.apply.set v a } } })

/-- Whether the write at `index` may be applied now: no earlier write of the same maker to the same operator slot is outstanding
(R213, R228), and it does not complete a third fill of its vector slot (R229). -/
def State.mayApply (s : State) (slice index : Nat) : Bool :=
  let c := s.sliceAt slice
  match c.writes[index]? with
  | none => false
  | some w =>
    !((c.writes.take index).any (fun x => x.writer = w.writer && x.slot = w.slot)) &&
    (match (c.slot w.slot).op with
     | none => true
     | some o => !(o.completes w && 2 ≤ snapshotsOf c w.slot (o.slotBytes w).1))

/-- Whether a write of a maker is on its way to an apply slot of some slice: it is not yet performed at dev scope (R213). -/
def State.writesOf (s : State) (w : Writer) : Bool := s.slices.any (fun p => p.2.writes.any (fun x => x.writer = w))

/-- The elements of a result (R94): one FP32 sum for each row, rounded to the output format. -/
def Operator.compute (o : Operator) (x : Memory) : List Nat :=
  let xs := (List.range o.n).map (fun n => (exactOf o.fmtIn (elementOf o.fmtIn x n)).1)
  (List.range o.m).map (fun i =>
    let row := (List.range o.n).map (fun j => (exactOf o.fmtIn (elementOf o.fmtIn o.matrix (i * o.n + j))).1)
    let acc := quadSum 0 (row.zip xs)
    if o.fmtOut = .f32 then acc else (rnd (fmtOf o.fmtOut) .rne (Fmt.fp32.decode acc)).1)

/-- The elements of a snapshot's result: the canonical NaN where a byte that it consumes is poisoned (R237). -/
def Operator.results (o : Operator) (f : Snapshot) : List Nat :=
  if f.poisoned then List.replicate o.m (fmtOf o.fmtOut).canonical else o.compute f.bytes

/-- The status flags of a result (R226, R237). -/
def Operator.resultFlags (o : Operator) (f : Snapshot) : BitVec 4 :=
  let fo := fmtOf o.fmtOut
  let ys := o.results f
  let nan := ys.any (fun y => (fo.decode y).isNan)
  let inf := ys.any (fun y => match fo.decode y with | .inf _ => true | _ => false)
  BitVec.ofNat 4 (8 + (if f.poisoned then 4 else 0) + (if inf then 2 else 0) + (if nan then 1 else 0))

/-- The bytes of a result's elements in one 128-byte line of its slot. -/
def Operator.lineBytes (o : Operator) (f : Snapshot) (line : Nat) : List (Nat × Byte) :=
  let ys := o.results f
  ((List.range 128).map (fun i => 128 * line + i)).filterMap (fun b =>
    if b < o.m * o.eout then some (b, BitVec.ofNat 8 (ys.getD (b / o.eout) 0 / 256 ^ (b % o.eout))) else none)

/-- A snapshot as its result is computed, before its first line is written: a poisoned matrix word is consumed then (R178, R237). -/
def Snapshot.computed (f : Snapshot) (o : Operator) : Snapshot :=
  if f.lines = 0 then { f with poisoned := f.poisoned || o.poisoned } else f

/-- The next line of the oldest snapshot's result written, with the last line the status word, which ends the fire (R178, R226, R229,
R237). -/
def State.fireLine (s : State) (slice : Nat) : State :=
  let c := s.sliceAt slice
  match c.fires with
  | [] => s
  | f0 :: rest =>
    match (c.slot f0.slot).op with
    | none => s.mapSlice slice (fun c => { c with fires := rest })
    | some o =>
      let f := f0.computed o
      let r := o.resultSlot f.vslot
      let r1 : ResultSlot := { r with
        bytes := (o.lineBytes f f.lines).foldl (fun (m : Memory) p => m.put p.1 p.2) r.bytes
        bad := r.bad.filter (fun b => b / 128 ≠ f.lines) }
      let last := o.qstride ≤ 128 * (f.lines + 1)
      let r2 : ResultSlot :=
        if last then { r1 with gen := r.gen + 1, overwrites := BitVec.ofNat 16 f.overwrites, flags := o.resultFlags f, fires := r.fires + 1 }
        else r1
      let s1 := (s.mapSlice slice (fun c => { c with fires := if last then rest else { f with lines := f.lines + 1 } :: rest })).mapSlot slice f.slot
        (fun q => { q with op := some { o with result := o.result.set f.vslot r2 } })
      if last && f.poisoned then s1.logEvent (.fireError slice f.slot) else s1

/-- Lines of the oldest snapshot's result written, in ascending order, until it ends. -/
def State.fire (s : State) (slice lines : Nat) : State :=
  match lines with
  | 0 => s
  | n + 1 =>
    let s1 := s.fireLine slice
    if (s1.sliceAt slice).fires.length < (s.sliceAt slice).fires.length then s1 else s1.fire slice n

/-- The lines that remain of the oldest snapshot's result. -/
def State.fireLeft (s : State) (slice : Nat) : Nat :=
  match (s.sliceAt slice).fires with
  | [] => 0
  | f :: _ => match ((s.sliceAt slice).slot f.slot).op with
    | none => 1
    | some o => o.qstride / 128 - f.lines

/-! ### Installation and removal (R222, R232 to R234, R403) -/

/-- The slice and slot of an operator handle (R222); none where it has not the form. -/
def handleOf (h : DWord) : Option (Nat × Nat) :=
  if h.toNat < 1024 && decide (h.toNat / 8 < 96) then some (h.toNat / 8, h.toNat % 8) else none

/-- The slice and slot that a handle names for a context (R222). -/
def State.handleFor (s : State) (ctx : Nat) (h : DWord) : Option (Nat × Nat) :=
  match handleOf h with
  | none => none
  | some (sl, n) =>
    let r := (s.sliceAt sl).slot n
    if r.valid && r.ctx = ctx then some (sl, n) else none

/-- An operator as OPINST leaves it (R232). -/
def Operator.fresh (fmtIn fmtOut : ElemType) (m n sl : Nat) (matrix : Memory) (poisoned : Bool) : Operator :=
  ⟨fmtIn, fmtOut, m, n, sl, matrix, poisoned, false, [], [], []⟩

/-- The installations whose OPINST is parked in a gang ended with nothing installed (R403). -/
def State.abandonInstalls (s : State) (g : Nat) : State :=
  { s with slices := s.slices.mapValues (fun _ c => { c with slots := c.slots.mapValues (fun _ q =>
    match q.installer with
    | some u => if u / 16 = g then { q with installing := false, removing := false, installer := none } else q
    | none => q) }) }

/-- The writes to an operator slot applied and its snapshots computed, at most `fuel` steps of the slice's order (R234). -/
def State.drainSlot (s : State) (slice slot fuel : Nat) : State :=
  match fuel with
  | 0 => s
  | f + 1 =>
    let c := s.sliceAt slice
    if c.fires.any (fun x => x.slot = slot) then (s.fire slice (s.fireLeft slice)).drainSlot slice slot f
    else
      match c.writes.findIdx? (fun w => w.slot = slot) with
      | some i => (s.applyWrite slice i).drainSlot slice slot f
      | none => s

/-- The removal of an operator (R234): writes ordered before are applied, snapshots computed, incomplete fills discarded, and the plots
scrubbed and returned to cache mode. -/
def State.removeOperator (s : State) (slice slot : Nat) : State :=
  let c := s.sliceAt slice
  let s1 := s.drainSlot slice slot (2 * c.writes.length + c.fires.length + 1)
  (s1.mapSlot slice slot (fun q => { q with op := none, installing := false, removing := false, installer := none })).setPlots slice (plotsOf (c.slot slot).plots) .cache

/-- The end of an installation: the windows accept accesses, and a write of UNINST that waited acts on what it left (R232, R403). -/
def State.endInstall (s : State) (slice slot : Nat) : State :=
  let q := (s.sliceAt slice).slot slot
  let s1 := s.mapSlot slice slot (fun q => { q with installing := false, removing := false, installer := none })
  if q.removing && q.op.isSome then s1.removeOperator slice slot else s1

/-- Whether a later load of a result slot that a team filled must wait: a write of the team to an apply window is outstanding, or the
generation that it filled has not been written (R197, R213). -/
def State.fillsPending (s : State) (u : Nat) : Bool :=
  s.writesOf (.team u)
  || s.slices.any (fun p => p.2.slots.any (fun q => match q.2.op with
      | none => false
      | some o => o.filled.any (fun f => f.1 / 64 = u && decide ((o.resultSlot (f.1 % 64)).fires < f.2))))

end Sys2Proof.Machine
end

