-- ==== Sys2Proof/Machine/Special.lean ====
section
/-! DEFINITION. The special functions of R83: the correctly rounded value of an exact mathematical function. FRCP is a rational, FSQRT
and FRSQ are rounded from an integer root with a sticky bit, and the transcendental functions from a rational enclosure in fixed point.
Where both ends of the enclosure round alike, the common value is the correctly rounded one; where they do not, the model leaves the
value to `Config.special` (log 16). -/
namespace Sys2Proof.Machine

/-- The special functions, by the function codes of class 4 (R72). -/
inductive SpecialFn where
  | rcp | sqrt | rsq | exp2 | log2 | sin | cos | tanh
  deriving DecidableEq, Repr

/-- The function code (R72). -/
def SpecialFn.code (f : SpecialFn) : Nat :=
  match f with
  | .rcp => 0x10 | .sqrt => 0x11 | .rsq => 0x12 | .exp2 => 0x13 | .log2 => 0x14 | .sin => 0x15 | .cos => 0x16 | .tanh => 0x17

/-- The integer square root, by bits from the highest: `fuel` bits of the root. -/
def isqrtGo (n root fuel : Nat) : Nat :=
  match fuel with
  | 0 => root
  | k + 1 => if (root + 2 ^ k) * (root + 2 ^ k) ≤ n then isqrtGo n (root + 2 ^ k) k else isqrtGo n root k

/-- The greatest number whose square is at most n. -/
def isqrt (n : Nat) : Nat := isqrtGo n 0 (Nat.log2 n / 2 + 1)

/-- A rational that rounds in every format of R77 as √(n/d) does: the root to 64 bits or more below its top, with a sticky bit. -/
def rootSurrogate (n d : Nat) : Exact :=
  let k := 96 + Nat.log2 d
  let num := n * 4 ^ k
  let r := isqrt (num / d)
  .fin false (2 * r + (if r * r * d = num then 0 else 1)) (2 ^ (k + 1))

/-! ### Fixed point with 256 fraction bits -/

/-- The number of fraction bits. -/
def fxBits : Nat := 256

/-- 1 in fixed point. -/
def fxOne : Int := 2 ^ fxBits

/-- The product in fixed point. -/
def fxMul (a b : Int) : Int := a * b / fxOne

/-- The sum of a power series: from the term and its sum, each next term is the last times `x` over the divisor of its index. -/
def fxSeries (x : Int) (divisor : Nat → Nat) (term sum : Int) (i fuel : Nat) : Int :=
  match fuel with
  | 0 => sum
  | k + 1 =>
    let t := fxMul term x / (divisor i : Int)
    fxSeries x divisor t (sum + t) (i + 1) k

/-- e^x for 0 ≤ x < 2 in fixed point: Σ x^i / i!. -/
def fxExp (x : Int) : Int := fxSeries x (fun i => i) fxOne fxOne 1 90

/-- sin x for |x| < 1 in fixed point: Σ (−1)^i x^(2i+1) / (2i+1)!. -/
def fxSin (x : Int) : Int := fxSeries (-(fxMul x x)) (fun i => 2 * i * (2 * i + 1)) x x 1 60

/-- cos x for |x| < 1 in fixed point: Σ (−1)^i x^(2i) / (2i)!. -/
def fxCos (x : Int) : Int := fxSeries (-(fxMul x x)) (fun i => (2 * i - 1) * (2 * i)) fxOne fxOne 1 60

/-- The sum of z^(2i+1) / (2i+1) from the power and the sum. -/
def fxAtanh (z2 pow sum : Int) (i fuel : Nat) : Int :=
  match fuel with
  | 0 => sum
  | k + 1 =>
    let p := fxMul pow z2
    fxAtanh z2 p (sum + p / ((2 * i + 1 : Nat) : Int)) (i + 1) k

/-- ln m for 1 ≤ m ≤ 2, m = num/den, in fixed point: 2 artanh((m − 1)/(m + 1)). -/
def fxLn (num den : Nat) : Int :=
  let z : Int := ((num : Int) - den) * fxOne / ((num + den : Nat) : Int)
  2 * fxAtanh (fxMul z z) z z 1 100

/-- The alternating sum of arctan(1/n) at `bits` fraction bits. -/
def atanInv (n2 : Nat) (pow sum : Int) (i fuel : Nat) : Int :=
  match fuel with
  | 0 => sum
  | k + 1 =>
    let p := -(pow / (n2 : Int))
    atanInv n2 p (sum + p / ((2 * i + 1 : Nat) : Int)) (i + 1) k

/-- π at `bits` fraction bits, by π/4 = 4 arctan(1/5) − arctan(1/239). -/
def piAt (bits : Nat) : Int :=
  let one : Int := 2 ^ bits
  4 * (4 * atanInv 25 (one / 5) (one / 5) 1 (bits / 4 + 4) - atanInv 57121 (one / 239) (one / 239) 1 (bits / 4 + 4))

/-- The distance by which the enclosures below exceed the computed value on each side: above the error of every sum here. -/
def fxMargin : Int := 2 ^ 40

/-- The exact value of a fixed-point number. -/
def Exact.ofFx (v : Int) : Exact := .ofRatio false v (2 ^ fxBits)

/-- The result of a function whose exact value is irrational and lies within the margin of the fixed-point number, scaled by 2^e. -/
def roundFx (f : Fmt) (v : Int) (e : Int) : Option (Nat × Flags) :=
  let scale (x : Exact) : Exact := if 0 ≤ e then x.mulBy (2 ^ e.toNat) 1 else x.divBy (2 ^ (-e).toNat) 1
  let lo := rnd f .rne (scale (Exact.ofFx (v - fxMargin)))
  let hi := rnd f .rne (scale (Exact.ofFx (v + fxMargin)))
  if lo.1 = hi.1 ∧ (lo.2 ||| flagNX) = (hi.2 ||| flagNX) then some (lo.1, lo.2 ||| flagNX) else none

/-- The value ±n/d at fixed point, rounded down in magnitude. -/
def fxOf (s : Bool) (n d : Nat) : Int := signed s (n * 2 ^ fxBits / d)

/-- FEXP2 of a finite non-zero operand: 2^x with x = i + r, 0 ≤ r < 1. Operands beyond ±4,096 overflow or vanish in every format. -/
def exp2Fin (f : Fmt) (s : Bool) (n d : Nat) : Option (Nat × Flags) :=
  if n % d = 0 && decide (n / d ≤ 4096) then
    let k := n / d
    some (rnd f .rne (if s then .fin false 1 (2 ^ k) else .fin false (2 ^ k) 1))
  else
    let x := fxOf s (if 4096 * d < n then 4096 * d else n) d
    let i := x / fxOne
    roundFx f (fxExp (fxMul (x - i * fxOne) (fxLn 2 1))) i

/-- FLOG2 of a finite positive operand. -/
def log2Fin (f : Fmt) (n d : Nat) : Option (Nat × Flags) :=
  let e := floorLog2 n d
  let num := if 0 ≤ e then n else n * 2 ^ (-e).toNat
  let den := if 0 ≤ e then d * 2 ^ e.toNat else d
  if num = den then some (rnd f .rne (.ofInt e))
  else roundFx f (e * fxOne + fxLn num den * fxOne / fxLn 2 1) 0

/-- The quadrant and the reduced angle of ±n/d radians, with π taken to as many more bits as the operand has above its point. -/
def reduceAngle (s : Bool) (n d : Nat) : Int × Int :=
  let extra := (floorLog2 n d).toNat + 16
  let q := fxBits + extra
  let x := signed s (n * 2 ^ q / d)
  let half := piAt q / 2
  let k := (x + half / 2) / half
  (k % 4, (x - k * half) / 2 ^ extra)

/-- FSIN and FCOS of a finite non-zero operand. -/
def sincosFin (f : Fmt) (isCos : Bool) (s : Bool) (n d : Nat) : Option (Nat × Flags) :=
  let (k, r) := reduceAngle s n d
  let k := if isCos then (k + 1) % 4 else k
  let v := if k = 0 then fxSin r else if k = 1 then fxCos r else if k = 2 then -(fxSin r) else -(fxCos r)
  roundFx f v 0

/-- FTANH of a finite non-zero operand: (e^(2x) − 1)/(e^(2x) + 1) on |x|; beyond 64 the value lies between 1 − 2^−80 and 1. -/
def tanhFin (f : Fmt) (s : Bool) (n d : Nat) : Option (Nat × Flags) :=
  let v : Int :=
    if 64 * d < n then fxOne - 2 ^ (fxBits - 80)
    else
      let x := 2 * fxOf false n d
      let l2 := fxLn 2 1
      let i := x / l2
      let e := fxExp (x - i * l2) * 2 ^ i.toNat
      (e - fxOne) * fxOne / (e + fxOne)
  (roundFx f v 0).map (fun r => (r.1 + (if s then f.signBit else 0), r.2))

/-- The result and flags of a special function (R83) for an operand of a format; `fmtCode` is the format's type code. -/
def specialFn (fn : SpecialFn) (t : ElemType) (a : Word32) : Nat × Flags :=
  let f := fmtOf t
  let bits := a.toNat % 2 ^ (1 + f.eb + f.fb)
  let open_ : Nat × Flags := ((Config.special fn.code t.code.toNat a).toNat % 2 ^ (1 + f.eb + f.fb), flagNX)
  let invalid : Nat × Flags := (f.canonical, flagNV)
  let signBits (s : Bool) : Nat := if s then f.signBit else 0
  match f.decode bits with
  | .nan => (f.canonical, invalidIf (f.isSignalling bits))
  | .inf s =>
    match fn with
    | .rcp => (signBits s, 0)
    | .sqrt => if s then invalid else (f.infBits, 0)
    | .rsq => if s then invalid else (0, 0)
    | .exp2 => if s then (0, 0) else (f.infBits, 0)
    | .log2 => if s then invalid else (f.infBits, 0)
    | .sin => invalid
    | .cos => invalid
    | .tanh => rnd f .rne (.fin s 1 1)
  | .zero s =>
    match fn with
    | .rcp => (signBits s + f.infBits, flagDZ)
    | .sqrt => (signBits s, 0)
    | .rsq => (signBits s + f.infBits, flagDZ)
    | .exp2 => rnd f .rne (.fin false 1 1)
    | .log2 => (f.signBit + f.infBits, flagDZ)
    | .sin => (signBits s, 0)
    | .cos => rnd f .rne (.fin false 1 1)
    | .tanh => (signBits s, 0)
  | .fin s n d =>
    match fn with
    | .rcp => rnd f .rne (.fin s d n)
    | .sqrt => if s then invalid else rnd f .rne (rootSurrogate n d)
    | .rsq => if s then invalid else rnd f .rne (rootSurrogate d n)
    | .exp2 => (exp2Fin f s n d).getD open_
    | .log2 => if s then invalid else (log2Fin f n d).getD open_
    | .sin => (sincosFin f false s n d).getD open_
    | .cos => (sincosFin f true s n d).getD open_
    | .tanh => (tanhFin f s n d).getD open_

end Sys2Proof.Machine
end

