-- ==== Sys2Proof/Machine/Lanes.lean ====
section
/-! DEFINITION. What the instructions of classes 3 to 6 that take vector operands compute, on the values of their operands (R135 to R158,
R89, R90). -/
namespace Sys2Proof.Machine

/-- The operands of a vector instruction as it reads them: TW, type, mode and variant, the active lanes, the values of a, b and d in each
lane, a scalar b, and the k registers. -/
structure VecIn where
  tw : Nat
  ty : ElemType
  mode : BitVec 2
  var : BitVec 4
  act : Nat → Bool
  a : Nat → Word32
  b : Nat → Word32
  d : Nat → Word32
  bs : DWord
  k : Nat → Mask

/-- What a vector instruction computes: lanes of a vector register, a whole mask, or a scalar. -/
inductive VecVal where
  | lanes (xs : List (Option Word32))
  | mask (m : Mask)
  | scal (x : DWord)
  deriving DecidableEq, Repr

/-- A value in each active lane, with the flags of the active lanes together (R82). -/
def VecIn.map (x : VecIn) (f : Nat → Word32 × Flags) : VecVal × Flags :=
  let rs := (List.range x.tw).map (fun l => if x.act l then some (f l) else none)
  (.lanes (rs.map (fun r => r.map (fun p => p.1))), rs.foldl (fun (fl : Flags) r => match r with | some p => fl ||| p.2 | none => fl) 0)

/-- A value in each active lane, without flags. -/
def VecIn.mapInt (x : VecIn) (f : Nat → Word32) : VecVal × Flags := x.map (fun l => (f l, 0))

/-- A mask of the lanes below TW that the function accepts. -/
def maskOf (tw : Nat) (f : Nat → Bool) : Mask :=
  BitVec.ofNat 1024 ((List.range tw).foldl (fun n l => if f l then n + 2 ^ l else n) 0)

/-- The relations of VCMP and SCMP on integers (R121, R139). -/
def relation (rel : Nat) (x y : Int) : Bool :=
  match rel with
  | 0 => x = y
  | 1 => x ≠ y
  | 2 => x < y
  | 3 => x ≤ y
  | 4 => y < x
  | _ => y ≤ x

/-- A lane as an integer of the instruction's type. -/
def VecIn.int (x : VecIn) (w : Word32) : Int := intOf x.ty.isSigned 32 w.toNat

/-- A lane from an integer, modulo 2^32. -/
def lane32 (n : Int) : Word32 := BitVec.ofNat 32 (wrap 32 n)

/-! ### Class 3 (R138 to R141) -/

/-- VADD. -/
def laneVadd (x : VecIn) : VecVal × Flags := x.mapInt (fun l => x.a l + x.b l)

/-- VSUB. -/
def laneVsub (x : VecIn) : VecVal × Flags := x.mapInt (fun l => x.a l - x.b l)

/-- VMUL. -/
def laneVmul (x : VecIn) : VecVal × Flags := x.mapInt (fun l => x.a l * x.b l)

/-- VMULH. -/
def laneVmulh (x : VecIn) : VecVal × Flags := x.mapInt (fun l => lane32 (x.int (x.a l) * x.int (x.b l) / 2 ^ 32))

/-- VMAD. -/
def laneVmad (x : VecIn) : VecVal × Flags := x.mapInt (fun l => x.a l * x.b l + x.d l)

/-- VADDS. -/
def laneVadds (x : VecIn) : VecVal × Flags := x.mapInt (fun l => lane32 (sat x.ty.isSigned 32 (x.int (x.a l) + x.int (x.b l))))

/-- VSUBS. -/
def laneVsubs (x : VecIn) : VecVal × Flags := x.mapInt (fun l => lane32 (sat x.ty.isSigned 32 (x.int (x.a l) - x.int (x.b l))))

/-- VAND. -/
def laneVand (x : VecIn) : VecVal × Flags := x.mapInt (fun l => x.a l &&& x.b l)

/-- VOR. -/
def laneVor (x : VecIn) : VecVal × Flags := x.mapInt (fun l => x.a l ||| x.b l)

/-- VXOR. -/
def laneVxor (x : VecIn) : VecVal × Flags := x.mapInt (fun l => x.a l ^^^ x.b l)

/-- VSHL. -/
def laneVshl (x : VecIn) : VecVal × Flags := x.mapInt (fun l => x.a l <<< ((x.b l).toNat % 32))

/-- VSHR. -/
def laneVshr (x : VecIn) : VecVal × Flags := x.mapInt (fun l => x.a l >>> ((x.b l).toNat % 32))

/-- VSAR. -/
def laneVsar (x : VecIn) : VecVal × Flags := x.mapInt (fun l => (x.a l).sshiftRight ((x.b l).toNat % 32))

/-- VMIN. -/
def laneVmin (x : VecIn) : VecVal × Flags := x.mapInt (fun l => if x.int (x.b l) < x.int (x.a l) then x.b l else x.a l)

/-- VMAX. -/
def laneVmax (x : VecIn) : VecVal × Flags := x.mapInt (fun l => if x.int (x.a l) < x.int (x.b l) then x.b l else x.a l)

/-- VCMP: inactive lanes give 0. -/
def laneVcmp (x : VecIn) : VecVal × Flags :=
  (.mask (maskOf x.tw (fun l => x.act l && relation x.var.toNat (x.int (x.a l)) (x.int (x.b l)))), 0)

/-- VSEL. -/
def laneVsel (x : VecIn) : VecVal × Flags := x.mapInt (fun l => if (x.k x.var.toNat).getLsbD l then x.a l else x.b l)

/-- VMOV. -/
def laneVmov (x : VecIn) : VecVal × Flags := x.mapInt x.b

/-! ### Class 4 (R142 to R145) -/

/-- A lane as the bits of the instruction's floating-point type (R135). -/
def VecIn.bits (x : VecIn) (w : Word32) : Nat := if x.ty = .f32 then w.toNat else w.toNat % 65536

/-- A lane from a floating-point result, bits above the type zero (R135). -/
def floatLane (r : Nat × Flags) : Word32 × Flags := (BitVec.ofNat 32 r.1, r.2)

/-- FADD. -/
def laneFadd (x : VecIn) : VecVal × Flags :=
  x.map (fun l => floatLane (fadd (fmtOf x.ty) (.ofMode x.mode) (x.bits (x.a l)) (x.bits (x.b l))))

/-- FSUB. -/
def laneFsub (x : VecIn) : VecVal × Flags :=
  x.map (fun l => floatLane (fsub (fmtOf x.ty) (.ofMode x.mode) (x.bits (x.a l)) (x.bits (x.b l))))

/-- FMUL. -/
def laneFmul (x : VecIn) : VecVal × Flags :=
  x.map (fun l => floatLane (fmul (fmtOf x.ty) (.ofMode x.mode) (x.bits (x.a l)) (x.bits (x.b l))))

/-- FFMA. -/
def laneFfma (x : VecIn) : VecVal × Flags :=
  x.map (fun l => floatLane (ffma (fmtOf x.ty) (.ofMode x.mode) (x.bits (x.a l)) (x.bits (x.b l)) (x.bits (x.d l))))

/-- FMIN. -/
def laneFmin (x : VecIn) : VecVal × Flags :=
  x.map (fun l => floatLane (fminmax (fmtOf x.ty) false (x.bits (x.a l)) (x.bits (x.b l))))

/-- FMAX. -/
def laneFmax (x : VecIn) : VecVal × Flags :=
  x.map (fun l => floatLane (fminmax (fmtOf x.ty) true (x.bits (x.a l)) (x.bits (x.b l))))

/-- FCMP: inactive lanes give 0 and raise nothing. -/
def laneFcmp (x : VecIn) : VecVal × Flags :=
  let r (l : Nat) : Bool × Flags := fcmp (fmtOf x.ty) x.var.toNat (x.bits (x.a l)) (x.bits (x.b l))
  (.mask (maskOf x.tw (fun l => x.act l && (r l).1)),
    (List.range x.tw).foldl (fun (f : Flags) l => if x.act l then f ||| (r l).2 else f) 0)

/-- The special functions FRCP to FTANH. -/
def laneSpecial (fn : SpecialFn) (x : VecIn) : VecVal × Flags := x.map (fun l => floatLane (specialFn fn x.ty (x.a l)))

/-! ### Class 5 (R146 to R150) -/

/-- The source type that the variant of a conversion names (R146). -/
def VecIn.source (x : VecIn) : ElemType := (ElemType.ofCode x.var).getD .untyped

/-- CVT. -/
def laneCvt (x : VecIn) : VecVal × Flags := x.map (fun l => convert false x.source x.ty (.ofMode x.mode) (x.a l))

/-- CVTS. -/
def laneCvts (x : VecIn) : VecVal × Flags := x.map (fun l => convert true x.source x.ty (.ofMode x.mode) (x.a l))

/-- A word with byte y replaced. -/
def putByte (w : Word32) (y c : Nat) : Word32 :=
  (w &&& ~~~(0xFF#32 <<< (8 * y))) ||| (BitVec.ofNat 32 (c % 256) <<< (8 * y))

/-- D8PACK. -/
def laneD8pack (x : VecIn) : VecVal × Flags :=
  x.map (fun l =>
    let v := exactOf x.ty (x.a l).toNat
    let r : Nat × Flags := match s10Decode (x.b l).toNat with
      | .zero => (0x00, 0)
      | .nan => (0x80, 0)
      | .value n d => toDM8 (v.1.divBy n d) v.2
    (putByte (x.d l) (x.var.toNat % 4) r.1, r.2))

/-- D8UNP. -/
def laneD8unp (x : VecIn) : VecVal × Flags :=
  x.map (fun l =>
    let v := dm8Decode ((x.a l).toNat / 2 ^ (8 * (x.var.toNat % 4)))
    match s10Decode (x.b l).toNat with
    | .zero => (0, 0)
    | .nan => (BitVec.ofNat 32 (fmtOf x.ty).canonical, 0)
    | .value n d => floatLane (rnd (fmtOf x.ty) (.ofMode x.mode) (v.mulBy n d)))

/-- The scale that S10MK gives a group: the largest magnitude of the active lanes over 1,024, rounded up (R88, R149). -/
def groupScale (xs : List Exact) : Nat :=
  if xs.any (fun v => v.isNan) then 0x3FF
  else toS10 ((xs.foldl (fun (m : Exact) v => if m.lt v.abs then v.abs else m) (.zero false)).divBy 1024 1)

/-- S10MK. -/
def laneS10mk (x : VecIn) : VecVal × Flags :=
  let g := 8 * 2 ^ x.var.toNat
  x.mapInt (fun l =>
    let group := ((List.range g).map (fun i => l / g * g + i)).filter (fun i => x.act i)
    BitVec.ofNat 32 (groupScale (group.map (fun i => (exactOf x.ty (x.a i).toNat).1))))

/-- S10AP. -/
def laneS10ap (x : VecIn) : VecVal × Flags :=
  x.map (fun l =>
    let v := exactOf x.ty (x.a l).toNat
    match s10Decode (x.b l).toNat with
    | .zero => (0, 0)
    | .nan => (BitVec.ofNat 32 (fmtOf x.ty).canonical, 0)
    | .value n d =>
      let r := rnd (fmtOf x.ty) (.ofMode x.mode) (if x.var = 0 then v.1.divBy n d else v.1.mulBy n d)
      floatLane (r.1, r.2 ||| invalidIf v.2))

/-! ### Class 6 (R151 to R158) -/

/-- XROT. -/
def laneXrot (x : VecIn) : VecVal × Flags :=
  let seg := if x.var = 0 then x.tw else 2 ^ x.var.toNat
  let n := (x.bs.toInt % (seg : Int)).toNat
  x.mapInt (fun l => x.a (l / seg * seg + (l % seg + n) % seg))

/-- XBFLY. -/
def laneXbfly (x : VecIn) : VecVal × Flags := x.mapInt (fun l => x.a (l ^^^ x.bs.toNat % x.tw))

/-- XSHFL. -/
def laneXshfl (x : VecIn) : VecVal × Flags := x.mapInt (fun l => x.a ((x.b l).toNat % x.tw))

/-- XBCST. -/
def laneXbcst (x : VecIn) : VecVal × Flags := x.mapInt (fun _ => x.a (x.bs.toNat % x.tw))

/-- The identity that an inactive lane enters (R156). -/
def redIdentity (ty : ElemType) (op : Nat) : Word32 :=
  let f := fmtOf ty
  if ty.isInt then
    match op with
    | 1 => if ty.isSigned then 0x7FFFFFFF else 0xFFFFFFFF
    | 2 => if ty.isSigned then 0x80000000 else 0
    | 3 => 0xFFFFFFFF
    | _ => 0
  else
    match op with
    | 0 => BitVec.ofNat 32 f.signBit
    | 1 => BitVec.ofNat 32 f.infBits
    | _ => BitVec.ofNat 32 (f.signBit + f.infBits)

/-- One combination of XRED and XSCAN (R156). -/
def redCombine (ty : ElemType) (op : Nat) (p q : Word32) : Word32 × Flags :=
  let f := fmtOf ty
  let u (w : Word32) : Nat := if ty = .f32 then w.toNat else w.toNat % 65536
  if ty.isInt then
    let i (w : Word32) : Int := intOf ty.isSigned 32 w.toNat
    (match op with
      | 0 => p + q
      | 1 => if i q < i p then q else p
      | 2 => if i p < i q then q else p
      | 3 => p &&& q
      | 4 => p ||| q
      | _ => p ^^^ q, 0)
  else
    match op with
    | 0 => floatLane (fadd f .rne (u p) (u q))
    | 1 => floatLane (fminmax f false (u p) (u q))
    | _ => floatLane (fminmax f true (u p) (u q))

/-- The values entering a reduction or scan. -/
def VecIn.entering (x : VecIn) : List Word32 :=
  (List.range x.tw).map (fun l => if x.act l then x.a l else redIdentity x.ty x.var.toNat)

/-- One level of the tree of R90: neighbours combined, and the flags. -/
def treeStep (ty : ElemType) (op : Nat) (xs : List Word32) : List Word32 × Flags :=
  match xs with
  | p :: q :: r =>
    let c := redCombine ty op p q
    let t := treeStep ty op r
    (c.1 :: t.1, c.2 ||| t.2)
  | r => (r, 0)

/-- The tree of R90 over at most 2^fuel lanes. -/
def treeReduce (ty : ElemType) (op fuel : Nat) (xs : List Word32) (fl : Flags) : List Word32 × Flags :=
  match fuel with
  | 0 => (xs, fl)
  | n + 1 => let t := treeStep ty op xs; treeReduce ty op n t.1 (fl ||| t.2)

/-- XRED: every active lane receives the result, and the whole tree raises its flags (log 92). When no lane is active nothing is written (R23). -/
def laneXred (x : VecIn) : VecVal × Flags :=
  let r := treeReduce x.ty x.var.toNat 10 x.entering 0
  let none_ := (List.range x.tw).all (fun l => !x.act l)
  ((x.mapInt (fun _ => r.1.headD 0)).1, if none_ then 0 else r.2)

/-- One step of the scan of R90: every lane from 2^j on combines the lane 2^j below it with itself. A combination raises flags where its lane is
active (R82; log 92). -/
def scanStep (ty : ElemType) (op n : Nat) (act : Nat → Bool) (xs : List Word32) : List Word32 × Flags :=
  let cs := (xs.zip (xs.drop n)).map (fun p => redCombine ty op p.1 p.2)
  (xs.take n ++ cs.map (fun c => c.1),
    (List.range cs.length).foldl (fun (f : Flags) i => if act (n + i) then f ||| (cs.getD i (0, 0)).2 else f) 0)

/-- The scan of R90. -/
def scanAll (ty : ElemType) (op n : Nat) (act : Nat → Bool) (fuel : Nat) (xs : List Word32) (fl : Flags) : List Word32 × Flags :=
  match fuel with
  | 0 => (xs, fl)
  | k + 1 =>
    if xs.length ≤ n then (xs, fl)
    else let t := scanStep ty op n act xs; scanAll ty op (2 * n) act k t.1 (fl ||| t.2)

/-- What lane 0 alone gives: its value combined with the identity, which makes a NaN canonical and clears the bits above a 16-bit value (R78,
R135). -/
def scanFirst (ty : ElemType) (op : Nat) (x : Word32) : Word32 × Flags :=
  if ty.isInt then (x, 0) else redCombine ty op (redIdentity ty op) x

/-- XSCAN. -/
def laneXscan (x : VecIn) : VecVal × Flags :=
  let op := x.var.toNat
  let xs := x.entering
  let first := scanFirst x.ty op (xs.headD 0)
  let r := scanAll x.ty op 1 x.act 11 (first.1 :: xs.drop 1) (if x.act 0 then first.2 else 0)
  ((x.mapInt (fun l => r.1.getD l 0)).1, r.2)

/-- XFIND: the lowest active lane that equals the low 32 bits of b, or all ones. -/
def laneXfind (x : VecIn) : VecVal × Flags :=
  (.scal (match (List.range x.tw).find? (fun l => x.act l && x.a l = x.bs.setWidth 32) with
    | some l => BitVec.ofNat 64 l
    | none => 0xFFFFFFFFFFFFFFFF), 0)

/-! ### The table -/

/-- The computation of an op of classes 3 to 6; an op that is no vector instruction computes nothing. -/
def vecOp (op : Nat) (x : VecIn) : VecVal × Flags :=
  match op with
  | 0x0C0 => laneVadd x
  | 0x0C1 => laneVsub x
  | 0x0C2 => laneVmul x
  | 0x0C3 => laneVmulh x
  | 0x0C4 => laneVmad x
  | 0x0C5 => laneVadds x
  | 0x0C6 => laneVsubs x
  | 0x0C7 => laneVand x
  | 0x0C8 => laneVor x
  | 0x0C9 => laneVxor x
  | 0x0CA => laneVshl x
  | 0x0CB => laneVshr x
  | 0x0CC => laneVsar x
  | 0x0CD => laneVmin x
  | 0x0CE => laneVmax x
  | 0x0CF => laneVcmp x
  | 0x0D0 => laneVsel x
  | 0x0D1 => laneVmov x
  | 0x100 => laneFadd x
  | 0x101 => laneFsub x
  | 0x102 => laneFmul x
  | 0x103 => laneFfma x
  | 0x104 => laneFmin x
  | 0x105 => laneFmax x
  | 0x106 => laneFcmp x
  | 0x110 => laneSpecial .rcp x
  | 0x111 => laneSpecial .sqrt x
  | 0x112 => laneSpecial .rsq x
  | 0x113 => laneSpecial .exp2 x
  | 0x114 => laneSpecial .log2 x
  | 0x115 => laneSpecial .sin x
  | 0x116 => laneSpecial .cos x
  | 0x117 => laneSpecial .tanh x
  | 0x140 => laneCvt x
  | 0x141 => laneCvts x
  | 0x142 => laneD8pack x
  | 0x143 => laneD8unp x
  | 0x144 => laneS10mk x
  | 0x145 => laneS10ap x
  | 0x180 => laneXrot x
  | 0x181 => laneXbfly x
  | 0x182 => laneXshfl x
  | 0x183 => laneXbcst x
  | 0x184 => laneXred x
  | 0x185 => laneXscan x
  | 0x186 => laneXfind x
  | _ => (.lanes [], 0)

end Sys2Proof.Machine
end

