-- ==== Sys2Proof/Machine/Operands.lean ====
section
/-! DEFINITION. Operand forms: immediates, broadcasts, scalar sources, the operands of a vector instruction, extension of loaded elements,
effective addresses and stream addresses (R57, R110, R111, R117, R135, R151, R181, R184, R185). -/
namespace Sys2Proof.Machine

/-- An 8-bit immediate as a 64-bit value (R57). -/
def imm64 (n : BitVec 8) : DWord := n.signExtend 64

/-- An 8-bit immediate as a lane: converted exactly for a floating-point type (R57, R135). -/
def immLane (ty : ElemType) (n : BitVec 8) : Word32 :=
  if ty = .f32 || ty = .f16 || ty = .bf16 then BitVec.ofNat 32 (rnd (fmtOf ty) .rne (.ofInt n.toInt)).1
  else n.signExtend 32

/-- A scalar broadcast to a lane: the low bits that the type's width needs (R57). -/
def broadcastLane (ty : ElemType) (x : DWord) : Word32 :=
  if ty = .f16 || ty = .bf16 then (x.setWidth 16).setWidth 32 else x.setWidth 32

/-- A scalar source: a scalar register or an immediate (R117). -/
def TeamRegs.source (r : TeamRegs) (x : Src) : DWord :=
  match x with
  | .reg n => r.sreg n.toNat
  | .scalar n => r.sreg n.toNat
  | .imm n => imm64 n
  | .queue _ => 0

/-- The a or b operand of a vector instruction in a lane; `popped` is the element that a queue source popped. A lane index is never
converted to a floating-point type (R57, R151). -/
def TeamRegs.laneSource (r : TeamRegs) (ty : ElemType) (x : Src) (popped : List Word32) (l : Nat) : Word32 :=
  match x with
  | .reg n => r.lane n.toNat l
  | .imm n => immLane ty n
  | .scalar n => broadcastLane ty (r.sreg n.toNat)
  | .queue _ => popped.getD l 0

/-- The type in which b is delivered: that of the instruction, but for the lane indices of XSHFL (R57, R151). -/
def bType (op : Nat) (ty : ElemType) : ElemType := if op = 0x182 then .s32 else ty

/-- The operands of a vector instruction (R135, R136). -/
def vecIn (tw op : Nat) (o : Ops) (r : TeamRegs) (pa pb : List Word32) : VecIn where
  tw := tw
  ty := o.ty
  mode := o.mode
  var := o.var
  act := r.active tw o.mask
  a := r.laneSource o.ty o.a pa
  b := r.laneSource (bType op o.ty) o.b pb
  d := r.lane o.d.num.toNat
  bs := r.source o.b
  k := r.kreg

/-- The register write of a vector instruction's result. -/
def vecWrite (n : Nat) (v : VecVal) : RegWrite :=
  match v with
  | .lanes xs => .vec n xs
  | .mask m => .mask n m
  | .scal x => .scal n x

/-! ### Loaded elements -/

/-- A loaded element of at most 32 bits as a lane: sign-extended for s8 and s16, zero-extended otherwise (R110, R184). -/
def extendLane (ty : ElemType) (bs : List Byte) : Word32 :=
  BitVec.ofNat 32 (wrap 32 (intOf ty.isSigned (8 * ty.size) (leNat bs)))

/-- A loaded scalar: sign-extended for a signed type, zero-extended otherwise (R185). -/
def extendScalar (ty : ElemType) (bs : List Byte) : DWord :=
  BitVec.ofNat 64 (wrap 64 (intOf ty.isSigned (8 * ty.size) (leNat bs)))

/-- A value in each lane of a list, none in the others. -/
def spread (tw : Nat) (xs : List (Nat × Word32)) : List (Option Word32) :=
  (List.range tw).map (fun l => (xs.find? (fun p => p.1 = l)).map (fun p => p.2))

/-- The register writes of a vector load (R183, R184). -/
def loadWrites (tw d : Nat) (ty : ElemType) (xs : List (Nat × List Byte)) : List RegWrite :=
  if ty.size = 8 then
    [.vec d (spread tw (xs.map (fun p => (p.1, BitVec.ofNat 32 (leNat (p.2.take 4)))))),
     .vec (d + 1) (spread tw (xs.map (fun p => (p.1, BitVec.ofNat 32 (leNat (p.2.drop 4))))))]
  else [.vec d (spread tw (xs.map (fun p => (p.1, extendLane ty p.2))))]

/-! ### Addresses -/

/-- The index of an effective address in a lane (R181). -/
def TeamRegs.indexLane (r : TeamRegs) (x : Src) (l : Nat) : DWord :=
  match x with
  | .reg n => (r.lane n.toNat l).signExtend 64
  | .scalar n => r.sreg n.toNat
  | .imm n => imm64 n
  | .queue _ => 0

/-- The active lanes of a vector access with their effective addresses (R181). -/
def TeamRegs.addresses (r : TeamRegs) (tw : Nat) (o : Ops) (base : DWord) (sc : Nat) : List (Nat × DWord) :=
  (r.activeLanes tw o.mask).map (fun l => (l, base + (r.indexLane o.b l <<< sc)))

/-- The effective address of a scalar access (R181, R185). -/
def TeamRegs.scalarAddress (r : TeamRegs) (o : Ops) (sc : Nat) : DWord := r.source o.a + (r.source o.b <<< sc)

/-- The address of a stream's element in a lane at its position: B + p·T + l·z (R110, R111). -/
def Stream.address (st : Stream) (l : Nat) : DWord :=
  st.base + BitVec.ofNat 64 st.pos * st.stride.signExtend 64 + BitVec.ofNat 64 (l * st.ty.size)

/-- Whether a stream is exhausted (R110, R111). -/
def Stream.done (st : Stream) : Bool := st.count ≠ 0 && st.pos = st.count

end Sys2Proof.Machine
end

