-- ==== Sys2Proof/Machine/Ops.lean ====
section
/-! DEFINITION. What every instruction shares: fault records, parking, the end of a dispatch, rollback, entry to the user handler and the
return from it, deferred instructions, lookahead windows, and retirement (R45, R68 to R71, R106, R124, R273, R358 to R373). -/
namespace Sys2Proof.Machine

/-- A part of a step: a value to go on with, or the state in which the step ends. -/
abbrev Flow (α : Type) := Except State α

/-! ### Fault records (R273) -/

/-- A record for a team's cause; its id is given by the hub. -/
def State.teamRecord (s : State) (u : Nat) (c : Cause) (acc : Byte) (addr iaddr : DWord) : FaultRecord :=
  let t := s.teamAt u
  let g := s.gangAt t.gang
  let d := s.dispatchAt g.dispatch
  ⟨s.fnOf d.ctx, 0, acc, 0, c, addr, iaddr, g.dispatch, g.glin, g.core, t.teamid, d.queue % 512⟩

/-- A record made by the hub under the function's next fault id: it waits for a free slot of the ring, or is dropped and counted when the
hub's store is full and the fault parks nothing. -/
def State.addRecord (s : State) (r : FaultRecord) (waits : Bool) : State × Nat :=
  let f := s.fnAt r.fn
  let s1 := s.mapFn r.fn (fun x => { x with nextId := (x.nextId + 1) % 2 ^ 32 })
  if waits || s.hub.records.length < 4096 then
    (s1.mapHub (fun h => { h with records := h.records ++ [{ r with id := f.nextId }] }), f.nextId)
  else (s1.mapFn r.fn (fun x => { x with overflow := x.overflow + 1 }), f.nextId)

/-- TCAUSE, TEPC and TVAL of a team (R359). -/
def State.noteTrap (s : State) (u : Nat) (c : Cause) (pc v : DWord) : State :=
  s.mapTeam u (fun t => { t with tcause := c.code, tepc := pc, tval := v })

/-! ### The end of a gang and of a dispatch (R45) -/

/-- Page `i` of a scratchpad mapping, where it is mapped and lies in the declared scratchpad: physical address, scratchpad offset, bytes. Its walk
waits for the host as every walk does, and sets the bits of its leaf (R171, R326, R332); a page whose walk meets poison is not mapped. -/
def State.mappedPage (s : State) (ctx e scratch i : Nat) (write : Bool) : Res (State × List (Nat × Nat × Nat)) :=
  let m := s.hub.mappings.get .none (64 * ctx + e)
  let va := m.va + 4096 * i
  let off := 4096 * (m.offset + i)
  let w := s.walkOn none ctx va
  match s.walkStop va w, w.leaf with
  | some (.wait r), _ => .error (.wait r, s)
  | none, some l =>
    if l.size = 4096 && l.kind = 0 && l.home = 2 && l.aux.toNat % 64 = e && l.base < dramTop && off < scratch then
      match (s.wakeWalk va w).setUsed l write with
      | .error x => .error x
      | .ok s1 => .ok (s1, [(l.base, off, min 4096 (scratch - off))])
    else .ok (s, [])
  | _, _ => .ok (s, [])

/-- The pages of a scratchpad mapping that lie in the gang's declared scratchpad (R171, R332). -/
def State.mappedPages (s : State) (ctx e scratch : Nat) (write : Bool) : Res (State × List (Nat × Nat × Nat)) :=
  (List.range (s.hub.mappings.get .none (64 * ctx + e)).pages).foldl (fun (r : Res (State × List (Nat × Nat × Nat))) i =>
    match r with
    | .error x => .error x
    | .ok (s, ps) =>
      match s.mappedPage ctx e scratch i write with
      | .error x => .error x
      | .ok (s1, p) => .ok (s1, ps ++ p)) (.ok (s, []))

/-- The runs of pages of a mapping within lines: physical address, scratchpad offset, bytes. -/
def pageRuns (ps : List (Nat × Nat × Nat)) : List (Nat × Nat × Nat) :=
  ps.flatMap (fun p => (lineRuns p.1 p.2.2).map (fun r => (p.1 + r.1, p.2.1 + r.1, r.2)))

/-- Bytes of a gang's scratchpad written home with their poison (R172, R175). -/
def State.writeHomeFrom (s : State) (x : Gang) (r : Nat × Nat × Nat) : State :=
  (s.homeWrite r.1 (x.scratchpad.read r.2.1 r.2.2)).mapMem (fun m =>
    ((List.range r.2.2).filter (fun i => x.poisoned (r.2.1 + i) 1)).foldl (fun (m : Mem) i => m.markPoison (r.1 + i) 1) m)

/-- A mapped scratchpad range written back to its backing pages, line by line. It waits, with nothing written, while the host holds one of its lines
(R172, R177, R215, R221). -/
def State.writeBackMapping (s : State) (ctx e g : Nat) : Res State :=
  let x := s.gangAt g
  match s.mappedPages ctx e x.scratch true with
  | .error x => .error x
  | .ok (s1, ps) =>
    match (pageRuns ps).findSome? (fun r => s1.hostBlocks r.1 true true) with
    | some stop => .error (stop, s1)
    | none => .ok ((pageRuns ps).foldl (fun (s : State) r => s.writeHomeFrom x r) s1)

/-- A live mapping unregistered; an entry whose valid bit is being cleared is then not valid (R172, R332). -/
def State.dropMapping (s : State) (core ctx e : Nat) : State :=
  (s.mapCore core (fun c => { c with mappings := c.mappings.filter (fun x => !(x.1 = ctx && x.2.1 = e)) })).mapHub (fun h => { h with
    mappings := h.mappings.update (64 * ctx + e) (fun m => if m.removing then { m with valid := false, removing := false } else m) })

/-- A live mapping written back and then unregistered (R172, R332). -/
def State.unmapOne (s : State) (core : Nat) (m : Nat × Nat × Nat) : Res State :=
  match s.writeBackMapping m.1 m.2.1 m.2.2 with
  | .error x => .error x
  | .ok s1 => .ok (s1.dropMapping core m.1 m.2.1)

/-- The live mappings of a gang written back and unregistered; a write-back that must wait for the host stops (R46, R172, R332). -/
def State.unmapGang (s : State) (g : Nat) : Res State :=
  let c := (s.gangAt g).core
  ((s.coreAt c).mappings.filter (fun m => m.2.2 = g)).foldl (fun (r : Res State) m =>
    match r with
    | .error x => .error x
    | .ok s => s.unmapOne c m) (.ok s)

/-- Whether a live mapping only waits for its write-back: its gang has ended, or its entry's valid bit is being cleared (R45, R332; log 89). -/
def State.unmapWaits (s : State) (m : Nat × Nat × Nat) : Bool :=
  (s.gangAt m.2.2).state ≠ .resident || (s.hub.mappings.get .none (64 * m.1 + m.2.1)).removing

/-- The write-backs of mappings that waited for the host tried again (R172, R221). -/
def State.finishUnmaps (s : State) : State :=
  s.cores.foldl (fun (s : State) p => p.2.mappings.foldl (fun (s : State) m =>
    if s.unmapWaits m then match s.unmapOne p.1 m with | .ok s1 => s1 | .error _ => s else s) s) s

/-- Whether a command of a footprint scheduler is an LMREL, which carries its effect through (R244, R361). -/
def Cmd.isRelease (c : Cmd) : Bool :=
  match c.kind with
  | .loam l => match l.op with | .release _ _ => true | _ => false
  | _ => false

/-- Whether a command is one of the matrix engine. -/
def Cmd.isMatrix (c : Cmd) : Bool := match c.kind with | .matrix _ => true | _ => false

/-- What a gang's place on its core gives up when the gang leaves it: commands that have not started, the engine with its queued commands
and pending tiles (R317), network queue, event counters. -/
def Core.forget (c : Core) (g : Nat) : Core :=
  { c with
    cmds := c.cmds.filter (fun x => x.gang ≠ g || (x.started && !x.isMatrix) || x.isRelease)
    netq := c.netq.filter (fun x => x.gang ≠ g)
    engine := if c.engine.owner = some g then .first none else c.engine
    counters := c.counters.map (fun p => if p.2.gang = some g then (p.1, { p.2 with gang := none }) else p) }

/-- A fault's holds without those of a gang's teams and of the commands that its core has discarded. -/
def Hub.release (h : Hub) (keep : Held → Bool) : Hub :=
  { h with held := (h.held.map (fun x => { x with holds := x.holds.filter keep })).filter (fun x => !x.holds.isEmpty) }

/-- The bed that a loam command names, by its handle's slice and bed (R254). -/
def CmdKind.bed (k : CmdKind) : Option Nat := match k with | .loam l => some (l.handle.toNat % 1024) | _ => none

/-- Whether a command is one of the same team for the same bed as another, that one itself or issued later, and no release. -/
def Cmd.follows (y x : Cmd) : Bool := y.team = x.team && x.kind.bed.isSome && y.kind.bed = x.kind.bed && x.id ≤ y.id && !y.isRelease

/-- Commands gone from every scheduler, save image and slice, with what holds them (R251, R359). -/
def State.dropCmds (s : State) (p : Cmd → Bool) : State :=
  let gone (core id : Nat) : Bool := (s.coreAt core).cmds.any (fun y => y.id = id && p y)
  { s with
    cores := s.cores.mapValues (fun _ c => { c with cmds := c.cmds.filter (fun y => !p y) })
    slices := s.slices.mapValues (fun _ c => { c with
      queue := c.queue.filter (fun q => !gone q.1 q.2), running := c.running.filter (fun q => !gone q.1 q.2) })
    hub := ({ s.hub with images := s.hub.images.map (fun i => { i with cmds := i.cmds.filter (fun y => !p y) }) } : Hub).release (fun h =>
      match h with
      | .command core id => !gone core id
      | _ => true) }

/-- The command of a cause that does not park its team discarded, with the later commands of its team for its bed, where it is a loam command: now that
the team takes the cause, or has no boundary left (R251, R359, R360). -/
def State.dropStopped (s : State) (id : Nat) : State :=
  match s.cores.findSome? (fun p => p.2.cmds.find? (fun y => y.id = id && y.stopped)) with
  | none => s
  | some x => s.dropCmds (fun y => y.id = id || y.follows x)

/-- What holds under a fault id made or shared: a fault of the same page, context and cause that is not resumed shares its id and makes
no record (R327). -/
def State.holdFault (s : State) (r : FaultRecord) (page : Option (Nat × Nat)) (h : Held) : State × Nat :=
  match s.hub.held.find? (fun x => x.fn = r.fn && x.cause = r.cause && x.page = page && page.isSome) with
  | some x =>
    (s.mapHub (fun k => { k with held := k.held.map (fun y => if y.fn = x.fn && y.id = x.id then { y with holds := y.holds ++ [h] } else y) }),
      x.id)
  | none =>
    let (s1, id) := s.addRecord r true
    (s1.mapHub (fun k => { k with held := k.held ++ [⟨r.fn, id, r.cause, page, [h]⟩] }), id)

/-- The page by which faults of translation are shared (R327). -/
def faultPage (ctx : Nat) (c : Cause) (va : DWord) : Option (Nat × Nat) :=
  match c with
  | .pageNotPresent => some (ctx, va.toNat / 4096)
  | .writeProtection => some (ctx, va.toNat / 4096)
  | _ => none

/-- The causes of commands that the teams of a gang that ends have not taken: a command that waits for RESUME is held at once, as for a team that has
exited, and any other goes (R45, R359). -/
def State.settleCauses (s : State) (g : Nat) : State :=
  (s.teamsOf g).foldl (fun (s : State) u => (s.teamAt u).async.foldl (fun (s : State) a =>
    match a.holds with
    | some h => (s.holdFault (s.teamRecord u a.cause a.access a.value a.pc) (faultPage (s.ctxOf u) a.cause a.value) h).1
    | none => s.dropStopped a.order) s) s

/-- A team of a gang that ends: it ends at its next instruction boundary, which for one that is part-way in an atomic comes with the end of the
atomic (R45). -/
def Team.finish (t : Team) (c : Cause) : Team :=
  { t with
    status := match t.status with
      | .atomicOp w => .atomicOp { w with ending := some c }
      | _ => .ended c
    windows := [], frozen := [], async := [], held := [], stop := false, yieldTo := [], stalled := Option.none, stuck := Option.none }

/-- A resident or saved gang ended by a cause (R45): every team ends with its windows discarded; engine commands that have not started are
discarded; a mapped scratchpad is written back, at once or when the host lets it be; deferred instructions carry on (R361). -/
def State.endGang (s : State) (g : Nat) (c : Cause) : State :=
  let x := s.gangAt g
  let core := x.core
  let s0 := s.settleCauses g
  let s1 := if x.state = .resident then (match s0.unmapGang g with | .ok s1 => s1 | .error _ => s0) else s0
  let s2 := (s1.mapCore core (fun k => k.forget g)).abandonInstalls g
  let s3 := (s2.teamsOf g).foldl (fun (s : State) u => s.mapTeam u (fun t => t.finish c)) s2
  let s4 := s3.mapGang g (fun k => { k with state := .ended, blocks := [], barriers := [], queues := [], shadow := none, fetches := [], rolling := false })
  let live (id : Nat) : Bool := (s4.coreAt core).cmds.any (fun k => k.id = id)
  s4.mapHub (fun h => { h.release (fun y => match y with
      | .team u => u / 16 ≠ g
      | .command k id => k ≠ core || live id
      | _ => true) with images := h.images.filter (fun i => i.gang ≠ g) })

/-- The end of a dispatch by a cause (R45): every gang of it ends and unadmitted gangs are discarded; its signal will carry the first
cause. -/
def State.endDispatch (s : State) (d : Nat) (c : Cause) : State :=
  let gs := (s.gangs.filter (fun p => p.2.dispatch = d && (p.2.state = .resident || p.2.state = .saved))).map (fun p => p.1)
  let s1 := gs.foldl (fun (s : State) g => s.endGang g c) s
  s1.mapDispatch d (fun x => { x with
    failed := some (x.failed.getD c), next := x.count, live := 0, unreported := [], audits := [] })

/-- A cause whose action is End, charged to a team (R45, R358, R359). -/
def State.endTeam (s : State) (u : Nat) (c : Cause) (pc v : DWord) (acc : Byte) (addr : DWord) : State :=
  let s1 := s.noteTrap u c pc v
  let s2 := (s1.addRecord (s1.teamRecord u c acc addr pc) false).1
  s2.endDispatch (s2.gangAt (s2.teamAt u).gang).dispatch c

/-! ### Parking (R327, R358 to R362) -/

/-- A team parked by a cause (R106, R359, R362): `pc` is the charged instruction, `v` is TVAL and UVAL, `addr` the record's address. -/
def State.park (s : State) (u : Nat) (c : Cause) (kind : ParkKind) (pc v : DWord) (acc : Byte) (addr : DWord) (h : Held) : State :=
  let s1 := s.noteTrap u c pc v
  let r := s1.teamRecord u c acc addr pc
  let (s2, id) := s1.holdFault r (faultPage (s1.ctxOf u) c v) h
  s2.mapTeam u (fun t => { t with status := .parked r.fn id c kind, stalled := none, stuck := none, regs := { t.regs with uval := v } })

/-! ### Rollback (R371 to R373) -/

/-- A team as a rollback stops it: its windows and what it waits for are discarded, and so are the results of its deferred instructions, which carry
their effects through (R361, R373). A team that had exited before the shadow holds none and stays as it is. -/
def Team.rollStop (t : Team) : Team :=
  if t.shadow.isNone then t
  else
    { t with
      status := .ready, stop := true, windows := [], frozen := [], held := [], yieldTo := [], stalled := Option.none, stuck := Option.none
      deferred := t.deferred.map (fun d => { d with d := 0 }) }

/-- A team as its shadow holds it (R371, R373). -/
def Team.reinstated (t : Team) : Team :=
  match t.shadow with
  | Option.none => t
  | some r => { t with regs := r, h := t.shadowH, stop := false, async := [] }

/-- Whether a command of a gang that has started, or an LMREL, is still to complete. -/
def State.startedLeft (s : State) (g : Nat) : Bool := s.cores.any (fun p => p.2.cmds.any (fun y => y.gang = g))

/-- The shadow of a gang reinstated, once the commands that had started have completed (R373). -/
def State.finishRoll (s : State) (g : Nat) : State :=
  if !(s.gangAt g).rolling || s.startedLeft g then s
  else
    let s1 := (s.teamsOf g).foldl (fun (s : State) u => s.mapTeam u Team.reinstated) s
    s1.mapGang g (fun k => match k.shadow with
      | none => { k with rolling := false }
      | some z => { k with scratchpad := z.scratchpad, barriers := z.barriers, queues := z.queues, rolling := false })

/-- A gang rolled back (R373): every team stops, commands that have not started are discarded, those that have started complete, and then the shadow
is reinstated. -/
def State.rollBack (s : State) (g : Nat) : State :=
  let x := s.gangAt g
  let s1 := s.mapCore x.core (fun k => { k with
    cmds := k.cmds.filter (fun y => y.gang ≠ g || y.started || y.isRelease)
    netq := k.netq.filter (fun y => y.gang ≠ g) })
  let s2 := (s1.teamsOf g).foldl (fun (s : State) u => s.mapTeam u Team.rollStop) (s1.abandonInstalls g)
  let s3 := (s2.mapGang g (fun k => { k with rolling := true, rollbacks := k.rollbacks + 1 })).mapHub (fun h =>
    h.release (fun y => match y with | .team u => u / 16 ≠ g | _ => true))
  (s3.logEvent (.rollback g)).finishRoll g

/-- A poisoned word consumed by a team or charged to it (R373): the gang rolls back, or ends with 0x40. -/
def State.consume (s : State) (u : Nat) (pc va : DWord) (acc : Byte) : State :=
  let g := (s.teamAt u).gang
  let x := s.gangAt g
  if (s.dispatchAt x.dispatch).rollback && !x.isSealed && decide (x.rollbacks < 3) && x.shadow.isSome then
    (s.noteTrap u .errorConsumed pc va).rollBack g
  else s.endTeam u .errorConsumed pc va acc va

/-! ### Faults of commands (R359, R360, R373) -/

/-- A record for a command's fault: it names the issuing team and the command's own instruction. -/
def State.commandRecord (s : State) (x : Cmd) (c : Cause) (acc : Byte) (addr : DWord) : FaultRecord :=
  s.teamRecord x.team c acc addr x.pc

/-- Whether a team has a next instruction boundary: it has not exited, its gang has not ended or retired, and no rollback stops it until its gang's
started commands are done (R373). -/
def State.hasBoundary (s : State) (u : Nat) : Bool :=
  match (s.teamAt u).status with
  | .absent => false
  | .exited => false
  | .ended _ => false
  | _ => !(s.gangAt (s.teamAt u).gang).rolling

/-- A cause put in its place among those charged to a team (R360). -/
def insertCause (a : AsyncCause) (l : List AsyncCause) : List AsyncCause :=
  match l with
  | [] => [a]
  | b :: r => if a.order < b.order then a :: b :: r else b :: insertCause a r

/-- A cause of a command charged to its team at the team's next boundary. A team that has none left is not parked: its record is written at
once, a cause that ends the gang ends it, and an error consumed takes its gang's rollback or ends it (R359, R373). -/
def State.charge (s : State) (x : Cmd) (c : Cause) (value : DWord) (acc : Byte) (holds : Option Held) : State :=
  if s.hasBoundary x.team then
    s.mapTeam x.team (fun t => { t with async := insertCause ⟨c, x.pc, value, acc, holds, x.id⟩ t.async })
  else
    match holds with
    | some h => (s.holdFault (s.commandRecord x c acc value) (faultPage x.ctx c value) h).1
    | none =>
      let live : Bool := (s.gangAt x.gang).state = .resident || (s.gangAt x.gang).state = .saved
      if live && c = .errorConsumed then s.consume x.team x.pc value acc
      else
        let s1 := (s.addRecord (s.commandRecord x c acc value) false).1
        if live then s1.endDispatch (s1.gangAt x.gang).dispatch c else s1

/-! ### The user handler (R71, R105, R106, R363) -/

/-- The low 11 bits of UIEN without GE and without the given pending bits. -/
def uienAfter (uien clear : BitVec 11) : BitVec 11 := uien &&& ~~~(0x008 ||| clear)

/-- UCAUSE at delivery (R105). -/
def ucauseOf (isInt ge : Bool) (n code : Byte) : DWord :=
  flag 63 isInt ||| flag 16 ge ||| field 8 8 n.toNat ||| field 0 8 code.toNat

/-- Entry to UHANDLER: the windows of the interrupted stream freeze, GE moves to PGE, H is set (R71, R106, R363). UVAL keeps its value: R98 lists
delivery as a change of it, but a rule gives the value for 0x52 alone, which `deliverTrap` writes (DESIGN CHOICE, log 81). -/
def Team.enter (t : Team) (isInt : Bool) (n code : Byte) (epc : DWord) (clear : BitVec 11) : Team :=
  { t with
    h := true
    frozen := t.windows
    windows := []
    status := .ready
    stalled := Option.none
    stuck := Option.none
    regs := { t.regs with
      pc := t.regs.uhandler
      ucause := ucauseOf isInt (t.regs.uien.getLsbD 3) n code
      uepc := epc
      uien := uienAfter t.regs.uien clear } }

/-- The return from the handler: the interrupted windows unfreeze, GE ← PGE, H ← 0, and the team goes on at UEPC (R363). -/
def Team.leave (t : Team) : Team :=
  { t with
    h := false
    windows := t.frozen
    frozen := []
    stalled := Option.none
    stuck := Option.none
    regs := { t.regs with
      pc := t.regs.uepc
      uien := (t.regs.uien &&& ~~~0x008) ||| (if t.regs.ucause.getLsbD 16 then 0x008 else 0) } }

/-- The windows open before an issue, each with one instruction fewer still to issue (R68, R130). -/
def Team.counted (t : Team) : Team := { t with windows := t.windows.map (fun w => { w with left := w.left - 1 }) }

/-- A trap delivered to UHANDLER (R358, R363): TRAP n and 0x52. With UHANDLER 0, or in a handler, the gang ends with the cause. -/
def State.deliverTrap (s : State) (u : Nat) (c : Cause) (n : Byte) (pc next : DWord) (uval : Option DWord) : State :=
  let t := s.teamAt u
  if t.regs.uhandler = 0 || t.h then s.endTeam u c pc 0 0 0
  else
    (s.noteTrap u c pc 0).mapTeam u (fun t =>
      let t1 := t.counted.enter false n c.code next 0
      { t1 with regs := { t1.regs with uval := uval.getD t1.regs.uval } })

/-- Whether a team stands at an instruction boundary: it is ready, or in a blocking wait or a try-wait, which a delivery ends (R51, R359). -/
def Team.atBoundary (t : Team) : Bool := match t.status with | .ready => true | .waiting _ => true | _ => false

/-- A team with the token of an ended BARSYNC kept for its stream, the handler's or the interrupted one (R348). -/
def Team.hold (t : Team) (b : Nat) (tok : BitVec 16) : Team :=
  { t with held := t.held.filter (fun x => x.inHandler ≠ t.h) ++ [⟨t.h, b, tok, t.regs.pc⟩] }

/-- The token that a BARSYNC on a barrier finds kept for its stream and its address (R348). -/
def Team.heldFor (t : Team) (b : Nat) : Option (BitVec 16) :=
  (t.held.find? (fun x => x.inHandler = t.h && x.barrier = b && x.pc = t.regs.pc)).map (fun x => x.token)

/-- A wait ended at its boundary without completing: it will be issued afresh, and a BARSYNC keeps its token (R51, R348). -/
def Team.endWait (t : Team) : Team :=
  match t.status with
  | .waiting w =>
    match w.kind with
    | .barrier b tok true _ _ => { t with status := .ready }.hold b tok
    | _ => { t with status := .ready }
  | _ => t

/-- The user interrupt that a boundary delivers, the lowest enabled pending source: its code and its pending bit (R106, R363). -/
def Team.interrupt (t : Team) : Option (Byte × BitVec 11) :=
  let e := t.regs.uien
  if !t.atBoundary || t.stop || t.h || t.regs.uhandler = 0 || !e.getLsbD 3 then Option.none
  else if e.getLsbD 8 && e.getLsbD 0 then some (0x60, 0x100)
  else if e.getLsbD 9 && e.getLsbD 1 then some (0x61, 0x200)
  else if e.getLsbD 10 && e.getLsbD 2 then some (0x62, 0x400)
  else Option.none

/-! ### Deferred instructions (R361) -/

/-- A deferred instruction's destination written, and the instruction no longer deferred; the destination of an ended team is discarded. -/
def State.endDeferred (s : State) (u i : Nat) (x : DWord) : State :=
  s.mapTeam u (fun t =>
    let d := (t.deferred.map (fun k => k.d)).getD i 0
    let ended : Bool := match t.status with | .ended _ => true | _ => false
    { t with deferred := t.deferred.eraseIdx i, regs := if ended then t.regs else t.regs.setS d x }.cleared (fun b => !ended && decide (b = BadReg.scalar d)))

/-- The operator slot that a deferred instruction of class 14 acts on. -/
def DeferredOp.slotOf (k : DeferredOp) : Option (Nat × Nat) :=
  match k with
  | .opinst sl n _ => some (sl, n)
  | .opseal h => handleOf h
  | .opuninst h => handleOf h
  | _ => none

/-- Whether an instruction deferred before the one at index `i` acts on an operator slot: a team's instructions act on a slot in program
order. -/
def Team.slotBusy (t : Team) (i sl n : Nat) : Bool := (t.deferred.take i).any (fun k => k.op.slotOf = some (sl, n))

/-- The completion of the deferred instruction at an index, where it can complete now: an installation ends, a seal or removal waits for
an installation in progress (R403), an invalidation completes (R328), a release waits for its engine (R244), CTXSAVE for its
pre-emption. -/
def State.completeDeferred (s : State) (u i : Nat) : Option State :=
  match (s.teamAt u).deferred[i]? with
  | none => none
  | some k =>
    match k.op with
    | .value x => some (s.endDeferred u i x)
    | .opinst sl n x => some ((s.endInstall sl n).endDeferred u i x)
    | .opseal h =>
      match s.handleFor (s.ctxOf u) h with
      | none => some (s.endDeferred u i 1)
      | some (sl, n) =>
        let q := (s.sliceAt sl).slot n
        if q.installing || (s.teamAt u).slotBusy i sl n then none
        else match q.op with
          | none => some (s.endDeferred u i 3)
          | some _ => some ((s.mapSlot sl n (fun q => { q with op := q.op.map (fun o => { o with isSealed := true }) })).endDeferred u i 0)
    | .opuninst h =>
      match s.handleFor (s.ctxOf u) h with
      | none => some (s.endDeferred u i 1)
      | some (sl, n) =>
        let q := (s.sliceAt sl).slot n
        if q.installing || (s.teamAt u).slotBusy i sl n then none
        else match q.op with
          | none => some (s.endDeferred u i 3)
          | some _ => some ((s.removeOperator sl n).endDeferred u i 0)
    | .lmrel _ r => r.map (fun x => s.endDeferred u i x)
    | .tlbinv id =>
      match s.completeInv id with
      | (s1, true) => some (s1.endDeferred u i 0)
      | (_, false) => none
    | .ctxsave _ _ => none

/-- The seals and removals that a team has deferred performed, oldest first, as far as they can be now, so that a later instruction of class
14 acts after them. -/
def State.performOperators (s : State) (u fuel : Nat) : State :=
  match fuel with
  | 0 => s
  | f + 1 =>
    let waits (k : DeferredOp) : Bool := match k with | .opseal _ => true | .opuninst _ => true | _ => false
    match (List.range (s.teamAt u).deferred.length).findSome? (fun i =>
        if ((s.teamAt u).deferred[i]?).any (fun k => waits k.op) then s.completeDeferred u i else none) with
    | some s1 => s1.performOperators u f
    | none => s

/-- The deferred instructions of a team that the condition names completed, oldest first; the step ends with the team stalled where one
cannot complete yet. -/
def State.settleWhere (s : State) (u : Nat) (p : Deferred → Bool) (fuel : Nat) : Flow State :=
  match fuel with
  | 0 => .ok s
  | f + 1 =>
    match (s.teamAt u).deferred.findIdx? p with
    | none => .ok s
    | some i =>
      match s.completeDeferred u i with
      | none => .error s
      | some s1 => s1.settleWhere u p f

/-- Every deferred instruction of a team completed (R361). -/
def State.settle (s : State) (u : Nat) : Flow State := s.settleWhere u (fun _ => true) ((s.teamAt u).deferred.length)

/-- The deferred instructions that write a scalar register among those named completed, so that an instruction that names it reads the
result (R120, R231, R361). -/
def State.settleRegs (s : State) (u : Nat) (ns : List Nat) : Flow State :=
  let n := (s.teamAt u).deferred.length
  let s1 := if (s.teamAt u).deferred.any (fun k => ns.contains k.d) then s.performOperators u n else s
  s1.settleWhere u (fun k => ns.contains k.d) n

/-! ### Stops (R358) -/

/-- A request of R387 for a host line, made once. -/
def State.request (s : State) (r : Option CxlRequest) : State :=
  match r with
  | none => s
  | some q => if s.mem.requests.any (fun x => x.line = q.line && x.owned = q.owned) then s
      else s.mapMem (fun m => { m with requests := m.requests ++ [q] })

/-- A stop of the instruction at the issuing team's program counter: it parks and is reissued, its gang ends, it stalls until the host
answers, it goes to the handler with 0x52, or the poison is consumed. -/
def State.stopAt (s : State) (e : Stop) : State :=
  let u := s.cur
  let pc := s.regs.pc
  match e with
  | .trap c va acc parks => if parks then s.park u c .reissue pc va acc va (.team u) else s.endTeam u c pc va acc va
  | .wait r => s.request r
  | .host uval => s.deliverTrap u .hostAtomic 0 pc (pc + 8) (some uval)
  | .poison va => s.consume u pc va 0x01

/-- A cause with no address that ends the gang of the issuing team. -/
def State.trapEnd (s : State) (c : Cause) : Out := .next (s.endTeam s.cur c s.regs.pc 0 0 0)

/-- A cause that refuses the word of the issuing team's instruction: TVAL holds the word (R74, R359). -/
def State.trapWord (s : State) (c : Cause) (i : Instr) : Out :=
  .next (s.endTeam s.cur c s.regs.pc ((encode i).getD 0) 0 ((encode i).getD 0))

/-- A cause with an address that ends the gang of the issuing team. -/
def State.trapAt (s : State) (c : Cause) (va : Nat) (acc : Byte) : Out := .next (s.stopAt (stopEnd c va acc))

/-! ### Windows (R68 to R71) -/

/-- A read of a stream's vector at its position: every lane is read (R110). The model reads it as the pop issues, as its window closes or in a
READAHEAD turn before, and never later (DESIGN CHOICE, log 78). -/
def State.streamRead (s : State) (u : Nat) (st : Stream) : Res (State × List Word32) :=
  let tw := (s.gangAt (s.teamAt u).gang).tw
  match st.ahead with
  | x :: _ => .ok (s, x)
  | [] =>
    match s.targets u .read 0x01 ((List.range tw).map (fun l => (l, st.address l))) st.ty.size with
    | .error e => .error e
    | .ok (s1, ts) =>
      match s1.readLanes u st.ty.size 0 ts with
      | .error e => .error e
      | .ok (s2, xs) => .ok (s2, xs.map (fun p => extendLane st.ty p.2))

/-- A stream read where an operand is one. -/
def State.streamOpt (s : State) (u : Nat) (x : Option Stream) : Res (State × List Word32) :=
  match x with
  | none => .ok (s, [])
  | some st => s.streamRead u st

/-- The pending access of a window performed: the register writes and flags of its result. -/
def State.performPending (s : State) (u : Nat) (p : Pending) : Res (State × List RegWrite × Flags) :=
  let tw := (s.gangAt (s.teamAt u).gang).tw
  match p with
  | .load l =>
    match s.targets u .read 0x01 l.lanes l.ty.size with
    | .error e => .error e
    | .ok (s1, ts) =>
      match s1.readLanes u l.ty.size l.policy ts with
      | .error e => .error e
      | .ok (s2, xs) =>
        .ok (s2, if l.scalar then [.scal l.d (extendScalar l.ty ((xs.map (fun p => p.2)).headD []))] else loadWrites tw l.d l.ty xs, 0)
  | .pop q =>
    match s.streamOpt u q.a with
    | .error e => .error e
    | .ok (s1, pa) =>
      match s1.streamOpt u q.b with
      | .error e => .error e
      | .ok (s2, pb) =>
        let r := vecOp q.op (vecIn tw q.op q.o q.regs pa pb)
        .ok (s2, [vecWrite q.o.d.num.toNat r.1], r.2)

/-- The bytes that a pending access reads: addresses and lengths. -/
def Pending.ranges (tw : Nat) (p : Pending) : List (Nat × Nat) :=
  let stream (x : Option Stream) : List (Nat × Nat) :=
    match x with
    | none => []
    | some st => (List.range tw).map (fun l => ((st.address l).toNat, st.ty.size))
  match p with
  | .load l => l.lanes.map (fun q => (q.2.toNat, l.ty.size))
  | .pop q => stream q.a ++ stream q.b

/-- Whether two lists of byte ranges have a byte in common. -/
def overlaps (a b : List (Nat × Nat)) : Bool := a.any (fun x => b.any (fun y => x.1 < y.1 + y.2 && y.1 < x.1 + x.2))

/-- The windows of a team's stream; with `fz` those of the interrupted stream, which a handler's entry froze (R71). -/
def Team.stream (t : Team) (fz : Bool) : List Window := if fz then t.frozen else t.windows

/-- A team with the windows of a stream replaced. -/
def Team.setStream (t : Team) (fz : Bool) (ws : List Window) : Team := if fz then { t with frozen := ws } else { t with windows := ws }

/-- The windows that come before the one at index `n` of a stream in program order: those of the interrupted stream come before a handler's. -/
def Team.earlier (t : Team) (n : Nat) (fz : Bool) : List Window := if fz then t.frozen.take n else t.frozen ++ t.windows.take n

/-- The window before the one at index `n` of a team's stream whose access has faulted and names a byte of the ranges given: that byte's accesses
come in program order, so the fault is taken first (R187, R205; log 80). -/
def Team.faultedFor (t : Team) (tw n : Nat) (ranges : List (Nat × Nat)) (fz : Bool := false) : Option Window :=
  (t.earlier n fz).find? (fun w => match w.res with
    | .faulted p _ _ => overlaps (p.ranges tw) ranges
    | _ => false)

/-- The fault of the interrupted stream behind which a window of it still waits to read a byte of the ranges given, or of any where none are (R71,
R187; log 80). -/
def Team.frozenFor (t : Team) (tw : Nat) (ranges : Option (List (Nat × Nat))) : Option Window :=
  t.frozen.findSome? (fun w => match w.res with
    | .pending p =>
      if ranges.all (fun r => overlaps (p.ranges tw) r) then t.faultedFor tw t.frozen.length (p.ranges tw) true else Option.none
    | _ => Option.none)

/-- A team parked by the fault of one of its windows (R71). -/
def State.parkWindow (s : State) (u : Nat) (w : Window) : State :=
  match w.res with
  | .faulted _ c va => s.park u c .window w.pc va 0x01 va (.team u)
  | _ => s

/-- The state in which a window's access stops (R71), or the fault that the window holds until it closes. -/
def State.windowStop (s : State) (u : Nat) (pc : DWord) (e : Stop) : State ⊕ (Cause × DWord) :=
  match e with
  | .trap c va acc parks => if parks then .inr (c, va) else .inl (s.endTeam u c pc va acc va)
  | .wait r => .inl (s.request r)
  | .host _ => .inl s
  | .poison va => .inl (s.consume u pc va 0x01)

/-- The access of the window at an index performed, or its fault recorded (R71). The step ends here where the gang ends or the host has not
answered, and where an earlier window of the team has faulted on the same byte. -/
def State.arriveOne (s : State) (u i : Nat) (fz : Bool := false) : Flow State :=
  match ((s.teamAt u).stream fz)[i]? with
  | none => .ok s
  | some w =>
    match w.res with
    | .pending p =>
      let tw := (s.gangAt (s.teamAt u).gang).tw
      match (s.teamAt u).faultedFor tw i (p.ranges tw) fz with
      | some x => .error (s.parkWindow u x)
      | none =>
        match s.performPending u p with
        | .ok (s1, ws, fl) => .ok (s1.mapTeam u (fun t => t.setStream fz ((t.stream fz).set i { w with res := .ready ws fl })))
        | .error (e, s1) =>
          match s1.windowStop u w.pc e with
          | .inl s2 => .error s2
          | .inr (c, va) => .ok (s1.mapTeam u (fun t => t.setStream fz ((t.stream fz).set i { w with res := .faulted p c va })))
    | _ => .ok s

/-- The first `n` windows of a team arrived, in the order of their instructions: a team's reads of one word never move backwards (R187, R203,
R205). -/
def State.arriveFirst (s : State) (u n : Nat) : Flow State :=
  (List.range n).foldl (fun (r : Flow State) i =>
    match r with
    | .error e => .error e
    | .ok s => s.arriveOne u i) (.ok s)

/-- The result of the window at an index arrives, after those of the earlier windows. -/
def State.arrive (s : State) (u i : Nat) : Flow State := s.arriveFirst u (i + 1)

/-- The pending accesses of the first `n` windows of a team's stream performed or faulted but those that wait behind a fault on the same byte
(R71). -/
def State.arriveUnblocked (s : State) (u n : Nat) (fz : Bool := false) : Flow State :=
  (List.range n).foldl (fun (r : Flow State) i =>
    match r with
    | .error e => .error e
    | .ok s =>
      let t := s.teamAt u
      let tw := (s.gangAt t.gang).tw
      match (t.stream fz)[i]?.map Window.res with
      | some (.pending p) => if (t.faultedFor tw i (p.ranges tw) fz).isSome then .ok s else s.arriveOne u i fz
      | _ => .ok s) (.ok s)

/-- The pending accesses of the windows that a handler's entry froze performed or faulted, as far as they can be. -/
def State.arriveFrozen (s : State) (u : Nat) : Flow State := s.arriveUnblocked u (s.teamAt u).frozen.length true

/-- Every pending access of a team's open windows performed or faulted, in order, after those of the interrupted stream: later accesses of the team
come after its earlier loads (R187, R203). -/
def State.arriveAll (s : State) (u : Nat) : Flow State :=
  match s.arriveFrozen u with
  | .error e => .error e
  | .ok s1 => s1.arriveFirst u (s1.teamAt u).windows.length

/-- Every pending access of a team's open windows performed or faulted, as far as it can be: what a delivery and a save wait for (R71). -/
def State.arriveQuiet (s : State) (u : Nat) : Flow State :=
  match s.arriveFrozen u with
  | .error e => .error e
  | .ok s1 => s1.arriveUnblocked u (s1.teamAt u).windows.length

/-- Every pending access of a team's windows performed before an access of the byte ranges given, or of every byte where none are; a window
that has faulted on one of them parks the team first (R187, R197, R205; log 80). -/
def State.arriveBefore (s : State) (u : Nat) (ranges : Option (List (Nat × Nat))) : Flow State :=
  match s.arriveAll u with
  | .error e => .error e
  | .ok s1 =>
    let t := s1.teamAt u
    let tw := (s1.gangAt t.gang).tw
    let w := match ranges with
      | some r => t.faultedFor tw t.windows.length r
      | none => (t.earlier t.windows.length false).find? (fun w => match w.res with | .faulted _ _ _ => true | _ => false)
    match (t.frozenFor tw ranges).or w with
    | some w => .error (s1.parkWindow u w)
    | none => .ok s1

/-- A result written at the close of its window, with its flags (R68, R82); register words written whole lose their poison (R175). -/
def State.writeResult (s : State) (u : Nat) (ws : List RegWrite) (fl : Flags) : State :=
  let tw := (s.gangAt (s.teamAt u).gang).tw
  s.mapTeam u (fun t =>
    let t1 := { t with regs := (t.regs.writeAll tw ws).raise fl }.cleared (fun b => ws.any (fun w => w.covers b))
    if fl.getLsbD 4 then t1.pend s.cycles 0x400 else t1)

/-- The window at an index taken out of the team and its result, which has arrived, written. -/
def State.writeAt (s : State) (u i : Nat) : State :=
  match (s.teamAt u).windows[i]? with
  | some ⟨_, _, .ready ws fl⟩ => (s.mapTeam u (fun t => { t with windows := t.windows.eraseIdx i })).writeResult u ws fl
  | _ => s

/-- The window at an index closed: its result arrives and is written; a faulted one parks the team (R71). -/
def State.closeAt (s : State) (u i : Nat) : Flow State :=
  match s.arrive u i with
  | .error e => .error e
  | .ok s1 =>
    match (s1.teamAt u).windows[i]? with
    | none => .ok s1
    | some w =>
      match w.res with
      | .ready _ _ => .ok (s1.writeAt u i)
      | .faulted _ _ _ => .error (s1.parkWindow u w)
      | .pending _ => .error s1

/-- The windows that the condition names closed, in the order in which they were opened (R68 to R70). -/
def State.closeWhere (s : State) (u : Nat) (p : Window → Bool) (fuel : Nat) : Flow State :=
  match fuel with
  | 0 => .ok s
  | f + 1 =>
    match (s.teamAt u).windows.findIdx? p with
    | none => .ok s
    | some i =>
      match s.closeAt u i with
      | .error e => .error e
      | .ok s1 => s1.closeWhere u p f

/-- The results of the windows whose count has run out arrived, before the instruction that is next may issue; a faulted one parks the team
(R68, R71). -/
def State.arriveDue (s : State) (u : Nat) : Flow State :=
  (List.range (s.teamAt u).windows.length).foldl (fun (r : Flow State) i =>
    match r with
    | .error e => .error e
    | .ok s =>
      match (s.teamAt u).windows[i]? with
      | none => .ok s
      | some w =>
        if w.left ≠ 0 then .ok s
        else
          match s.arrive u i with
          | .error e => .error e
          | .ok s1 =>
            match (s1.teamAt u).windows[i]? with
            | some ⟨pc, l, .faulted p c va⟩ => .error (s1.parkWindow u ⟨pc, l, .faulted p c va⟩)
            | _ => .ok s1) (.ok s)

/-- The results that are due written as the instruction that follows them issues (R68). -/
def State.writeDue (s : State) (u fuel : Nat) : State :=
  match fuel with
  | 0 => s
  | f + 1 =>
    match (s.teamAt u).windows.findIdx? (fun w => w.left = 0) with
    | none => s
    | some i => (s.writeAt u i).writeDue u f

/-- Every window of the stream closed, as EXIT, URET and HALT wait for (R70). -/
def State.closeAll (s : State) (u : Nat) : Flow State := s.closeWhere u (fun _ => true) (s.teamAt u).windows.length

/-- Room for a window: a ninth long-latency instruction closes the oldest first (R70). -/
def State.windowRoom (s : State) (u : Nat) : Flow State :=
  if 8 ≤ (s.teamAt u).windows.length then s.closeAt u 0 else .ok s

/-! ### Retirement (R68, R124) -/

/-- The issuing team gone on to `next`, its instruction counted in its windows. -/
def State.goTo (s : State) (next : DWord) : State :=
  let t := s.team.counted
  s.setTeam { t with status := .ready, stalled := none, stuck := none, regs := { t.regs with pc := next } }

/-- The state after an instruction that does not transfer control: the next address, or 0x12 where it lies in the local window, in a record with
the access bits of a fetch (R124; DESIGN CHOICE, log 82). -/
def State.advance (s : State) : State :=
  let pc := s.regs.pc
  if (pc + 8).toNat = windowBase then s.endTeam s.cur .windowKind pc (pc + 8) 0x04 (pc + 8) else s.goTo (pc + 8)

/-- The outcome of an instruction that has made its effect and goes on to the next address. -/
def State.retire (s : State) : Out := .next s.advance

/-- The check of R124 that a transfer to T fails. -/
def badTarget (t : Int) : Option Cause :=
  if t % 8 ≠ 0 then some .misalignment
  else if t < 0 || (2 ^ 57 : Int) ≤ t then some .pageNotPresent
  else if inWindow t.toNat then some .windowKind
  else none

/-- The outcome of a transfer to T (R124); `link` is the register write that comes with it. The record of a failed target has the access bits of
a fetch (DESIGN CHOICE, log 82). -/
def State.transfer (s : State) (t : Int) (link : State → State) : Out :=
  match badTarget t with
  | some c => .next (s.endTeam s.cur c s.regs.pc (BitVec.ofInt 64 t) 0x04 (BitVec.ofInt 64 t))
  | none => .next ((link s).goTo (BitVec.ofInt 64 t))

/-- The end of a wait of a team that still waits: its result is written and it goes on (R201, R340). -/
def State.finishWait (s : State) (u d : Nat) (x : DWord) : State :=
  match (s.teamAt u).status with
  | .waiting _ => s.asTeam u (fun s => (s.setS d x).advance)
  | _ => s

/-- The outcome of a long-latency instruction with lookahead count `la` whose result is `res` (R68 to R71): with la 0 the result is written
at once, or a fault parks the team at the next address, unless an older window is due first. -/
def State.retireLong (s : State) (la : BitVec 4) (res : WindowResult) : Out :=
  let u := s.cur
  let pc := s.regs.pc
  let w : Window := ⟨pc, la.toNat, res⟩
  let s1 := s.advance
  let ended : Bool := match (s1.teamAt u).status with | .ended _ => true | _ => false
  if ended then .next s1
  else if la = 0 && !(s1.teamAt u).windows.any (fun w => w.left = 0) then
    match res with
    | .ready ws fl => .next (s1.writeResult u ws fl)
    | .faulted _ c va =>
      .next ((s1.mapTeam u (fun t => { t with windows := t.windows ++ [w] })).park u c .window pc va 0x01 va (.team u))
    | .pending _ => .next (s1.mapTeam u (fun t => { t with windows := t.windows ++ [w] }))
  else .next (s1.mapTeam u (fun t => { t with windows := t.windows ++ [w] }))

/-- The outcome of a part that may end the step. -/
def Flow.out {α : Type} (x : Flow α) (f : α → Out) : Out :=
  match x with
  | .ok a => f a
  | .error s => .next s

/-- The outcome of an access of the issuing team's instruction: its stop, or what follows. -/
def Res.out {α : Type} (x : Res α) (f : α → Out) : Out :=
  match x with
  | .ok a => f a
  | .error (e, s1) => .next (s1.stopAt e)

end Sys2Proof.Machine
end

