-- ==== Sys2Proof/Machine/Issue.lean ====
section
/-! DEFINITION. What comes before an instruction's meaning: cycles, which teams are ready and which issues, the fetch of its word, what the checks
of a word know of the team, the registers that it reads, and the bookkeeping of an issue (R15, R23, R38, R39, R43, R52, R64, R120, R124, R175,
R354, R356, R360, R365). -/
namespace Sys2Proof.Machine

/-! ### Cycles (R15) -/

/-- The shift by which an island divides nominal cycles; a gated island counts none (R15, R392). -/
def Island.shift (i : Island) : Option Nat := if i.gated then Option.none else some i.current

/-- CYC of a core at a number of nominal cycles (R15, R104). -/
def State.cycAtCycle (s : State) (c cycles : Nat) : Nat :=
  let k := s.coreAt c
  if s.platform.safe then k.cyc
  else
    match (s.platform.islands.get .none c).shift with
    | none => k.cyc
    | some n => k.cyc + (cycles - k.cycAt) / 2 ^ n

/-- The count of cycles of a core (R15, R104). -/
def State.cycOf (s : State) (c : Nat) : Nat := s.cycAtCycle c s.cycles

/-- The cycles of a core's island in the next `n` nominal cycles: bounds in cycles are counted in them (R15). -/
def State.coreCycles (s : State) (c n : Nat) : Nat := s.cycAtCycle c (s.cycles + n) - s.cycOf c

/-! ### Who issues (R39, R43, R365) -/

/-- Whether a team stands before an instruction that it could issue: it is in no other state of R43 and not stopped for a pre-emption. -/
def Team.canIssue (t : Team) : Bool := t.status = .ready && !t.stop

/-- Whether a team is ready (R39): its next instruction does not stall, and it waits for no team after a YIELD (R365). -/
def Team.isReady (t : Team) : Bool := t.canIssue && t.stuck.isNone && t.yieldTo.isEmpty

/-- The team that takes the pass slot: a ready team of the same pipe that holds forced priority, the highest timer first and the lower team
slot on a tie, else the team of the turn (R39). -/
def State.arbitrate (s : State) (u : Nat) : Nat :=
  let t := s.teamAt u
  let core := s.coreOf u
  let rivals := s.teams.filter (fun p => p.2.forced && p.2.isReady && p.2.pipe = t.pipe && s.coreOf p.1 = core)
  match rivals.foldl (fun (b : Option (Nat × Team)) p =>
      match b with
      | none => some p
      | some q => if q.2.starve < p.2.starve || (q.2.starve = p.2.starve && p.2.slot < q.2.slot) then some p else b) none with
  | none => u
  | some p => p.1

/-- The teams that a yielding team still waits for: those that have not issued and have not ceased to be ready (R365). -/
def State.yieldWaits (s : State) (u : Nat) : List Nat := (s.teamAt u).yieldTo.filter (fun v => (s.teamAt v).isReady)

/-! ### Passes (R23, R64, R354, R356) -/

/-- The masks under which an instruction acts on lanes: one for a vector instruction, which is of classes 3 to 6, and one for each lane slot of a
D word; none for any other instruction (R23, R64). -/
def laneMasks (i : Instr) : List (Option (BitVec 3)) :=
  let slot (x : Short) : List (Option (BitVec 3)) :=
    match x with
    | .nop => []
    | .op sop y => if sop.isScalar then [] else [y.mask]
  match i.fForm, i.dForm with
  | some (op, o), _ => if 0x0C0 ≤ op && op < 0x1C0 then [o.mask] else []
  | none, some (a, b) => slot a ++ slot b
  | none, none => []

/-- The passes that an instruction spends: one for each word of the union of its effective masks that is not zero, and one if every word is zero
(R23, R64). -/
def TeamRegs.passes (r : TeamRegs) (tw : Nat) (masks : List (Option (BitVec 3))) : Nat :=
  let union : Mask := masks.foldl (fun (m : Mask) k =>
    m ||| (match k with | none => r.em | some k => r.em &&& r.kreg k.toNat)) 0
  max 1 ((List.range (tw / 32)).filter (fun w => union.extractLsb' (32 * w) 32 ≠ 0#32)).length

/-- The bookkeeping of an issue: the timer starts again, no yielding team waits for this one any more, and the gang's instructions and passes are
counted (R23, R39, R354, R356, R365). -/
def State.noteIssue (s : State) (u : Nat) (i : Instr) : State :=
  let forced := (s.teamAt u).forced
  let g := (s.teamAt u).gang
  let masks := laneMasks i
  let n := (s.teamAt u).regs.passes (s.gangAt g).tw masks
  let s1 := { s with teams := s.teams.mapValues (fun v t =>
    if v = u then { t with starve := 0, forced := false, yieldTo := [] } else { t with yieldTo := t.yieldTo.filter (fun x => x ≠ u) }) }
  let s2 := s1.count g 1 1
  let s3 := if masks.isEmpty then s2 else (s2.mapGang g (fun x => { x with work := x.work + n })).count g 2 n
  if forced then s3.count g 8 1 else s3

/-- The team begins an attempt to issue: it stalls until an instruction retires, parks, waits or ends (R359). -/
def State.attempt (s : State) (u : Nat) : State := s.mapTeam u (fun t => { t with stuck := some false })

/-- A stall of the issuing team on a queue register or an engine queue other than the matrix command queue and the scheduler, for which no count runs
(R260, R356). -/
def State.stallQueue (s : State) : State := s.setTeam { s.team with stalled := none, stuck := some true }

/-! ### Fetch and decode (R52, R67, R73, R124) -/

/-- What the checks of a word know of a team. -/
def State.env (s : State) (u : Nat) : Env :=
  let t := s.teamAt u
  let g := s.gangAt t.gang
  { priv := (s.ctxAt (s.ctxOf u)).priv
    vregs := g.vregs
    tw := g.tw
    longQ := BitVec.ofNat 16 ((List.range 16).foldl (fun n q =>
      match t.regs.q.find q with
      | some (.load _) => n + 2 ^ q
      | some .epilogue => n + 2 ^ q
      | _ => n) 0) }

/-- The word at a team's program counter (R52, R124, R164). A TRAP or an interrupt delivered to a UHANDLER that cannot be fetched is charged at this
fetch, with the handler's address (DESIGN CHOICE, log 82). -/
def State.fetch (s : State) (u : Nat) : Res (State × DWord) :=
  let pc := (s.teamAt u).regs.pc.toNat
  let core := s.coreOf u
  let ctx := s.ctxOf u
  if pc % 8 ≠ 0 then .error (stopEnd .misalignment pc 0x04, s)
  else if 2 ^ 57 ≤ pc then .error (stopEnd .pageNotPresent pc 0x04, s)
  else if inWindow pc then .error (stopEnd .windowKind pc 0x04, s)
  else
    match s.translate ⟨some core, some (s.teamAt u).gang⟩ ctx pc .fetch 0x04 with
    | .error e => .error e
    | .ok (s1, leaf, pa) =>
      match s1.placeOf ctx pc leaf pa with
      | .error c => .error (stopEnd c pc 0x04, s1)
      | .ok p =>
        let path := s1.pathOf (some core) ctx leaf pa 0
        match s1.ownWordsHome core p 8 0x04 path with
        | .error e => .error e
        | .ok s2 =>
          match s2.readHome pc p 8 path with
          | .error e => .error e
          | .ok (s3, bs) => .ok (s3, BitVec.ofNat 64 (leNat bs))

/-! ### Registers an instruction names -/

/-- The scalar registers that a specifier of a kind names. -/
def kindRegs (k : Kind) (n : BitVec 8) : List Nat :=
  match k with
  | .scalar => [n.toNat]
  | .evenScalar => [n.toNat, n.toNat + 1]
  | .copyGroup => (List.range 8).map (fun i => n.toNat + i)
  | .netGroup => (List.range 4).map (fun i => n.toNat + i)
  | _ => []

/-- The scalar registers that a source names. -/
def srcRegs (k : Kind) (x : Src) : List Nat :=
  match x with
  | .reg n => kindRegs k n
  | .scalar n => [n.toNat]
  | _ => []

/-- The scalar registers that a slot of a D word names. -/
def shortRegs (x : Short) : List Nat :=
  match x with
  | .nop => []
  | .op sop y =>
    (if sop.isScalar then [y.d.toNat] else []) ++
    (match y.b with
     | .reg n => if sop.isScalar then [n.toNat] else []
     | .scalar n => [n.toNat]
     | .imm _ => [])

/-- The scalar registers that an instruction names (R55). -/
def scalarsOf (i : Instr) : List Nat :=
  match i.fForm, i.lForm, i.dForm with
  | some (op, o), _, _ =>
    match fSpec op with
    | none => []
    | some sp =>
      let k := sp.kinds o
      (match o.d with | .reg n => kindRegs k.1 n | .queue _ => []) ++ srcRegs k.2.1 o.a ++ srcRegs k.2.2 o.b
        ++ (if op = 0x202 then [o.d.num.toNat + 1] else [])
        ++ (if (0x2C0 ≤ op && op ≤ 0x2C2) || op = 0x2C8 then [o.a.num.toNat + 1] else [])
        ++ (if op = 0x380 then [o.b.num.toNat + 1] else [])
  | _, some (op, o), _ =>
    match lSpec op with
    | none => []
    | some sp => kindRegs sp.kindD o.d ++ kindRegs sp.kindA o.a
  | _, _, some (a, b) => shortRegs a ++ shortRegs b
  | _, _, _ => []

/-! ### Poisoned registers that an instruction reads (R175; log 32) -/

/-- Whether a source field of a kind, `n` registers long, names a poisoned register word; `lane` says which lanes of a vector it reads. -/
def fieldReads (k : Kind) (x : BitVec 8) (n : Nat) (lane : Nat → Bool) (b : BadReg) : Bool :=
  match k, b with
  | .vector, .vector m l => x.toNat ≤ m && m < x.toNat + n && lane l
  | .mask, .mask m => m = x.toNat
  | k, .scalar m => (kindRegs k x).contains m || (k = .scalar && x.toNat < m && m < x.toNat + n)
  | _, _ => false

/-- Whether a source reads a poisoned register word. -/
def srcReads (k : Kind) (x : Src) (n : Nat) (lane : Nat → Bool) (b : BadReg) : Bool :=
  match x with
  | .reg m => fieldReads k m n lane b
  | .scalar m => fieldReads .scalar m 1 lane b
  | _ => false

/-- Whether an F-form instruction reads its d field as a source: the accumulating instructions, D8PACK, stores, atomics and the peer of WAITA
(R137). -/
def readsD (op : Nat) : Bool := [0x0C4, 0x103, 0x142, 0x1C1, 0x1C3, 0x1C5, 0x200, 0x201, 0x202, 0x209].contains op

/-- Whether an L-form instruction reads its d field as a source: SMOVHI, BLT, LOOP and STS. -/
def readsDL (op : Nat) : Bool := [0x011, 0x043, 0x04A, 0x1C3].contains op

/-- The registers that the d field of a store or atomic stands for (R183, R192). -/
def dCount (op : Nat) (o : Ops) : Nat :=
  if op = 0x200 || op = 0x201 then atomRegs o
  else if op = 0x202 then (if o.var.toNat % 8 = 7 then 2 else 1)
  else if op = 0x1C1 || op = 0x1C5 then (if o.ty.size = 8 then 2 else 1)
  else 1

/-- Whether an instruction reads a poisoned register word. A shuffle reads every lane of its vectors, any other
instruction its active lanes (R151 to R158). -/
def readsRegister (i : Instr) (r : TeamRegs) (tw : Nat) (b : BadReg) : Bool :=
  let masked (m : Option (BitVec 3)) : Bool := match m, b with | some k, .mask n => n = k.toNat | _, _ => false
  let slot (x : Short) : Bool :=
    match x with
    | .nop => false
    | .op sop y =>
      let k : Kind := if sop.isScalar then .scalar else .vector
      let lane := r.active tw y.mask
      masked y.mask || (sop ≠ .vmov && fieldReads k y.d 1 lane b) || (match y.b with
        | .reg n => fieldReads k n 1 lane b
        | .scalar n => fieldReads .scalar n 1 lane b
        | .imm _ => false)
  match i.fForm, i.lForm, i.dForm with
  | some (op, o), _, _ =>
    match fSpec op with
    | none => false
    | some sp =>
      let k := sp.kinds o
      let lane (l : Nat) : Bool := (0x180 ≤ op && op ≤ 0x183) || r.active tw o.mask l
      let pairA := if (0x2C0 ≤ op && op ≤ 0x2C2) || op = 0x2C8 then 2 else 1
      let pairB := if op = 0x380 then 2 else 1
      masked o.mask || (op = 0x0D0 && masked (some (o.var.setWidth 3)))
        || srcReads k.2.1 o.a pairA lane b || srcReads k.2.2 o.b pairB lane b
        || (readsD op && (match o.d with | .reg n => fieldReads k.1 n (dCount op o) lane b | .queue _ => false))
  | _, some (op, o), _ =>
    match lSpec op with
    | none => false
    | some sp => fieldReads sp.kindA o.a 1 (fun _ => false) b || (readsDL op && fieldReads sp.kindD o.d 1 (fun _ => false) b)
  | _, _, some (x, y) => slot x || slot y
  | _, _, _ => false

/-- Whether an instruction reads the record of a named barrier or queue of its gang: BARINIT and CINIT write it whole, BARINIT after it has read the
barrier that stands there (R262, R345). -/
def readsSync (i : Instr) (g : Gang) (x : BadSync) : Bool :=
  match i, x with
  | .barinit o, .barrier n => o.d.num.toNat = n && (g.barriers.get .none n).init
  | .bararr o, .barrier n => o.a.num.toNat = n
  | .bartx o, .barrier n => o.a.num.toNat = n
  | .barwait o, .barrier n => o.a.num.toNat = n
  | .barsync o, .barrier n => o.a.num.toNat = n
  | .bartrywait o, .barrier n => o.a.num.toNat = n
  | .exit _, .barrier n => n = 0
  | .pushc o, .queue n => o.d.num.toNat = n
  | .popc o, .queue n => o.a.num.toNat = n
  | .trypopc o, .queue n => o.a.num.toNat = n
  | _, _ => false

/-- Whether an instruction of the team consumes a poisoned register word, or the poisoned record of a barrier or queue, as it issues. -/
def State.readsBad (s : State) (u : Nat) (i : Instr) : Bool :=
  let t := s.teamAt u
  let g := s.gangAt t.gang
  t.bad.any (fun b => readsRegister i t.regs g.tw b) || g.badSync.any (readsSync i g)

end Sys2Proof.Machine
end

