-- ==== Sys2Proof/Machine/Placement.lean ====
section
/-! DEFINITION. A program placed where the next step fetches it: a context with a page table, a dispatch, a gang of one team, and the
word at the team's program counter (R21, R24, R323; log 20). -/
namespace Sys2Proof.Machine

/-- The virtual address at which the placed word stands. -/
def placedPc : Nat := 0x1000

/-- The page tables of the placed context, one for each level at physical pages 1 to 5, and the leaf that maps the placed page to physical
page 6, normal, writable and executable, home 0 (R323, R324). -/
def placedTables : List (Nat × Nat) :=
  [(0x1000, 0x2001), (0x2000, 0x3001), (0x3000, 0x4001), (0x4000, 0x5001), (0x5008, 0x600F)]

/-- The placed team. -/
def placedTeam : Team :=
  { Team.none with
    status := .ready
    regs := { TeamRegs.zero with pc := BitVec.ofNat 64 placedPc, em := laneMask 32 } }

/-- The placed gang: one team of 32 lanes with 256 vector registers. -/
def placedGang : Gang := { Gang.none with state := .resident, dispatch := 0, nteams := 1, tw := 32, vregs := 256 }

/-- The state with a word stored where its next step fetches: the team whose turn it is becomes the placed one, in a privileged context. -/
def State.place (s : State) (w : DWord) : State :=
  let dram := (placedTables.foldl (fun (m : Memory) p => m.write p.1 (leBytes 8 p.2)) s.mem.dram).write 0x6000 (bytesOfWord w)
  { s with
    agenda := []
    cur := 0
    teams := s.teams.set 0 placedTeam
    gangs := s.gangs.set 0 placedGang
    mem := { s.mem with dram := dram }
    hub := { s.hub with
      nextGang := max s.hub.nextGang 1
      ctxs := s.hub.ctxs.set 0 { CtxRecord.none with valid := true, priv := true, root := 1 }
      dispatches := s.hub.dispatches.set 0 { Dispatch.none with valid := true, dimX := 1, dimY := 1, dimZ := 1, next := 1, live := 1 } } }

end Sys2Proof.Machine
end

