-- ==== Sys2Proof/Machine/Continuations.lean ====
section
/-! DEFINITION. Gang shapes and continuation records, and their way into a continuation queue (R28, R269 to R271, R349). -/
namespace Sys2Proof.Machine

/-- A gang shape: the second word of a kernel descriptor (R269). -/
structure Shape where
  tw : Nat
  vregs : Nat
  nteams : Nat
  cls : Nat
  persistent : Bool
  scratch : Nat
  deriving DecidableEq, Repr

/-- The shape that a word describes; none where a field is outside its values (R269). -/
def shapeOf (w : DWord) : Option Shape :=
  let tw := bitsOf w 0 3
  let v := bitsOf w 3 3
  if 5 < tw || 4 < v || bitsOf w 13 19 ≠ 0 || bitsOf w 52 12 ≠ 0 || 524288 < bitsOf w 32 20 then none
  else some ⟨32 * 2 ^ tw, 16 * 2 ^ v, bitsOf w 6 4 + 1, bitsOf w 10 2, bitsOf w 12 1 = 1, bitsOf w 32 20⟩

/-- Whether a kernel descriptor's shape may start a dispatch: its class is P or W (R269). -/
def kernelShape (w : DWord) : Option Shape := (shapeOf w).filter (fun p => p.cls = 1 || p.cls = 2)

/-- Whether a continuation record's shape is well formed, with class and persistent both 0 (R270), and its code VA a multiple of 8: a record with another
code VA is malformed too (DESIGN CHOICE, log 102). -/
def recordShape (code w : DWord) : Option Shape :=
  (shapeOf w).filter (fun p => p.cls = 0 && !p.persistent && code.toNat % 8 = 0)

/-- The doubleword `i` of 32 bytes of a record. -/
def recordWord (bs : List Byte) (i : Nat) : DWord := dwordOfBytes bs i

/-- What became of a continuation record (R270, R349). -/
inductive Pushed where
  | done | full | malformed
  deriving DecidableEq, Repr

/-- The dispatch whose packet a dispatch belongs to: its own, or for a continuation the one under which it was spawned (R271). -/
def State.rootOf (s : State) (d : Nat) : Nat := if (s.dispatchAt d).cont then (s.dispatchAt d).parent else d

/-- A record pushed to the continuation queue of the host queue of the issuing team's dispatch (R270, R271). A malformed record that meets a full queue is
told as malformed (DESIGN CHOICE, log 101). -/
def State.pushContinuation (s : State) (bs : List Byte) : State × Pushed :=
  let d := s.gang.dispatch
  let x := s.dispatchAt d
  let q := s.queueAt x.queue
  let r : ContRecord := ⟨recordWord bs 0, recordWord bs 1, recordWord bs 2, recordWord bs 3, x.packet, s.rootOf d⟩
  if (recordShape r.code r.shape).isNone then (s, .malformed)
  else if 4096 ≤ q.conts.length then (s, .full)
  else
    ((s.mapQueue x.queue (fun q => { q with conts := q.conts ++ [r] })).mapDispatch (s.rootOf d)
      (fun y => { y with conts := y.conts + 1 }), .done)

/-- A deferred instruction that has made its effect: its destination is written later (R361). -/
def State.defer (s : State) (d : Nat) (op : DeferredOp) : State :=
  s.setTeam { s.team with deferred := s.team.deferred ++ [⟨s.regs.pc, d, op⟩] }

/-- The outcome of a deferred instruction that has made its effect with a result. -/
def State.retireDeferred (s : State) (d : Nat) (x : DWord) : Out := (s.defer d (.value x)).retire

/-- The end of a JOIN whose counter held `old`: its record, read before, is pushed when the party is the last (R349). -/
def State.joinFinish (s : State) (d : Nat) (bs : List Byte) (old : DWord) : Out :=
  if old ≠ 1 then s.retireDeferred d 0
  else
    match s.pushContinuation bs with
    | (s1, .malformed) => s1.retireDeferred d 3
    | (s1, .full) => s1.retireDeferred d 2
    | (s1, .done) => s1.retireDeferred d 1

end Sys2Proof.Machine
end

