-- ==== Sys2Proof/Machine/LoadStore.lean ====
section
/-! DEFINITION. Loads, stores and line operations of class 7 (R181 to R190). -/
namespace Sys2Proof.Machine

/-! ### Shapes -/

/-- The scale code of class 7 (R184). -/
def scaleOf (o : Ops) : Nat := o.var.toNat / 4

/-- Whether an access of a lane touches the register aperture: it reads or writes registers as the instruction issues (R103). -/
def touchesAperture (lanes : List (Nat × DWord)) : Bool :=
  lanes.any (fun p => inWindow p.2.toNat && apertureV ≤ p.2.toNat - windowBase)

/-- The deferred results that an access of the scalar aperture would read or overtake completed first (R103, R361). -/
def State.settleAperture (s : State) (lanes : List (Nat × DWord)) : Flow State :=
  if touchesAperture lanes then s.settle s.cur else .ok s

/-- The bytes that the lanes of an access name. -/
def laneRanges (lanes : List (Nat × DWord)) (n : Nat) : List (Nat × Nat) := lanes.map (fun p => (p.2.toNat, n))

/-- A load (R68, R71, R182, R188): with la 0 or on the aperture it is performed as it issues, else when its window closes or earlier. -/
def State.load (s : State) (l : PendingLoad) (la : BitVec 4) : Out :=
  match l.lanes.findSome? (fun p => rangeCheck 0x01 p.2.toNat l.ty.size) with
  | some e => .next (s.stopAt e)
  | none =>
    if la ≠ 0 && !touchesAperture l.lanes then s.retireLong la (.pending (.load l))
    else
      (s.arriveBefore s.cur (some (laneRanges l.lanes l.ty.size))).out (fun s1 =>
        match s1.performPending s1.cur (.load l) with
        | .ok (s2, ws, fl) => s2.retireLong la (.ready ws fl)
        | .error (.trap c va acc parks, s2) =>
          if parks then s2.retireLong la (.faulted (.load l) c va) else .next (s2.stopAt (.trap c va acc false))
        | .error (e, s2) => .next (s2.stopAt e))

/-- A load with room made for its window, before its addresses are computed, and its deferred registers settled (R70). -/
def State.loadWhole (s : State) (l : TeamRegs → PendingLoad) (la : BitVec 4) : Out :=
  (s.windowRoom s.cur).out (fun s1 => (s1.settleAperture (l s1.regs).lanes).out (fun s2 => s2.load (l s2.regs) la))

/-- A store (R182, R187, R188): no lane is performed until every lane has passed its checks. -/
def State.store (s : State) (lanes : List (Nat × DWord)) (n : Nat) (data : Nat → List Byte) (policy : BitVec 2) : Out :=
  (s.settleAperture lanes).out (fun s1 => (s1.arriveBefore s1.cur (some (laneRanges lanes n))).out (fun s2 =>
    (s2.targets s2.cur .write 0x02 lanes n).out (fun r =>
      match r.1.writeLanes r.1.cur policy (r.2.map (fun p => (p.1, p.2, data p.1))) with
      | .ok s3 => s3.retire
      | .error e => .next (r.1.stopAt e.1))))

/-- The bytes of a lane of a vector, or of a register pair for a type of 64 bits (R183, R184). -/
def TeamRegs.laneBytes (r : TeamRegs) (d : Nat) (ty : ElemType) (l : Nat) : List Byte :=
  leBytes ty.size (if ty.size = 8 then (r.lane d l).toNat + 2 ^ 32 * (r.lane (d + 1) l).toNat else (r.lane d l).toNat)

/-! ### Loads and stores (R184, R185) -/

/-- LD. -/
def execLd (o : Ops) (s : State) : Out :=
  s.loadWhole (fun r => ⟨o.d.num.toNat, false, o.ty, o.mode, r.addresses s.tw o (r.source o.a) (scaleOf o)⟩) o.la

/-- ST. -/
def execSt (o : Ops) (s : State) : Out :=
  s.store (s.regs.addresses s.tw o (s.regs.source o.a) (scaleOf o)) o.ty.size (s.regs.laneBytes o.d.num.toNat o.ty) o.mode

/-- LDS in F form. -/
def execLds (o : Ops) (s : State) : Out :=
  s.loadWhole (fun r => ⟨o.d.num.toNat, true, o.ty, o.mode, [(0, r.scalarAddress o (scaleOf o))]⟩) o.la

/-- LDS in L form: 64 bits at s(a) + sext(imm), default policy. -/
def execLdsL (o : LOps) (s : State) : Out :=
  s.loadWhole (fun r => ⟨o.d.toNat, true, .n64, 0, [(0, r.sreg o.a.toNat + o.imm.signExtend 64)]⟩) o.la

/-- STS in F form. -/
def execSts (o : Ops) (s : State) : Out :=
  s.store [(0, s.regs.scalarAddress o (scaleOf o))] o.ty.size (fun _ => leBytes o.ty.size (s.sreg o.d.num.toNat).toNat) o.mode

/-- STS in L form. -/
def execStsL (o : LOps) (s : State) : Out :=
  s.store [(0, s.sreg o.a.toNat + o.imm.signExtend 64)] 8 (fun _ => leBytes 8 (s.sreg o.d.toNat).toNat) 0

/-! ### The local window (R186) -/

/-- The lanes of LDL and STL with their addresses W + x + idx × 2^sc. -/
def State.localLanes (s : State) (o : Ops) : List (Nat × DWord) :=
  s.regs.addresses s.tw o (BitVec.ofNat 64 windowBase + s.regs.source o.a) (scaleOf o)

/-- The checks of R186 and R182 on an element of a local access: wholly in the window, then alignment. -/
def localCheck (acc : Byte) (ea n : Nat) : Option Stop :=
  if !inWindow ea || !inWindow (ea + n - 1) then some (stopEnd .windowKind ea acc)
  else if ea % n ≠ 0 then some (stopEnd .misalignment ea acc)
  else none

/-- The deciding stop of a local access, lanes in ascending order, if one fails (R182, R186). -/
def State.localStop (s : State) (a : Access) (acc : Byte) (lanes : List (Nat × DWord)) (n : Nat) : Option Stop :=
  match lanes.findSome? (fun p => localCheck acc p.2.toNat n) with
  | some e => some e
  | none => lanes.findSome? (fun p => match s.localTarget s.cur a acc p.2.toNat n with
    | .error e => some e
    | .ok _ => none)

/-- LDL: a window is closed for it before its addresses are computed and checked (R70). -/
def execLdl (o : Ops) (s : State) : Out :=
  (s.windowRoom s.cur).out (fun s1 =>
    match s1.localStop .read 0x01 (s1.localLanes o) o.ty.size with
    | some e => .next (s1.stopAt e)
    | none => s1.loadWhole (fun r => ⟨o.d.num.toNat, false, o.ty, 0, r.addresses s1.tw o (BitVec.ofNat 64 windowBase + r.source o.a) (scaleOf o)⟩) o.la)

/-- STL. -/
def execStl (o : Ops) (s : State) : Out :=
  match s.localStop .write 0x02 (s.localLanes o) o.ty.size with
  | some e => .next (s.stopAt e)
  | none => s.store (s.localLanes o) o.ty.size (s.regs.laneBytes o.d.num.toNat o.ty) 0

/-! ### Line operations (R189, R190) -/

/-- The first address of each distinct line that the active lanes name, in ascending order of lanes. -/
def lineAddresses (lanes : List (Nat × DWord)) : List Nat :=
  lanes.foldl (fun (l : List Nat) p =>
    let a := p.2.toNat / 128 * 128
    if l.contains a then l else l ++ [a]) []

/-- The page of a line for a line operation: none where translation fails or the page has home 2 or 3 or a window kind. A walk that must wait
for the host is waited for. An address in the local window, of which no rule speaks here, is translated like any other (DESIGN CHOICE, log 96). -/
def State.linePage (s : State) (va : Nat) (a : Access) : Res (State × Option (Leaf × Nat)) :=
  match s.translate ⟨some (s.coreOf s.cur), some s.team.gang⟩ (s.ctxOf s.cur) va a 0 with
  | .error (.trap _ _ _ _, s1) => .ok (s1, none)
  | .error e => .error e
  | .ok (s1, leaf, pa) => .ok (s1, if s1.neverCached (s1.ctxOf s1.cur) leaf pa then none else some (leaf, pa))

/-- An operation made on each line in turn; a line that must wait for the host stalls the instruction. A replay sends and fetches no line, so that its
line operations other than DISC, the one that asks for a write, do nothing (R375). -/
def State.eachLine (s : State) (lines : List Nat) (a : Access) (f : State → Nat → Leaf → Nat → Res State) : Out :=
  (lines.foldl (fun (r : Res State) va =>
      match r with
      | .error e => .error e
      | .ok s =>
        match s.linePage va a with
        | .error e => .error e
        | .ok (s1, none) => .ok s1
        | .ok (s1, some (leaf, pa)) => if s1.gang.replay && a ≠ .write then .ok s1 else f s1 va leaf pa) (.ok s) : Res State).out (fun s1 => s1.retire)

/-- The lines that an instruction names, once the team's earlier loads of them have been performed (R187). -/
def State.linesAfterLoads (s : State) (o : Ops) (f : State → List Nat → Out) : Out :=
  let lines := lineAddresses (s.regs.addresses s.tw o (s.regs.source o.a) (scaleOf o))
  (s.arriveBefore s.cur (some (lines.map (fun a => (a, 128))))).out (fun s1 => f s1 lines)

/-- A line filled into the L1 of a core, where the L1 has a place for it. -/
def State.fillL1 (s : State) (core ctx va pa rank : Nat) : State :=
  match s.lineFor core ctx (pa / 128) (va / 128) with
  | .ok (s1, some l) => s1.putLine core (l.fill s1.mem) rank
  | .ok (s1, none) => s1
  | .error _ => s

/-- A prefetch of a line: into its slice, with ownership of its words where it is for a write, and unless the policy is no-L1 into the L1 of the
core. A host line that the device does not hold is asked for and not waited for. -/
def State.prefetchLine (s : State) (core ctx va pa : Nat) (path : Path) (write intoL1 : Bool) : State :=
  match s.hostBlocks pa write true with
  | some (.wait r) => s.request r
  | some _ => s
  | none =>
    let s1 := (s.wakeFor pa path).bring pa path
    let s2 := if write then s1.ownWords (pa / 128) (path.via.getD (homeSlice pa)) 0xFFFFFFFF path.rank else s1
    if intoL1 then s2.fillL1 core ctx va pa path.rank else s2

/-- PF. -/
def execPf (o : Ops) (s : State) : Out :=
  s.eachLine (lineAddresses (s.regs.addresses s.tw o (s.regs.source o.a) (scaleOf o))) .read (fun s va leaf pa =>
    let core := s.coreOf s.cur
    let ctx := s.ctxOf s.cur
    let s1 := if o.mode ≠ 3 && ((s.coreAt core).line (pa / 128)).isNone then s.countFill s.team.gang else s
    .ok (s1.prefetchLine core ctx va pa (s.pathOf (some core) ctx leaf pa o.mode) (o.var.getLsbD 0) (o.mode ≠ 3)))

/-- A DISC of a line: which of its dirty words the core drops and which it keeps is free, word by word (R190). -/
def State.discard (s : State) (pa : Nat) : State :=
  let r := s.takeFree
  if s.gang.replay then
    r.2.mapGang s.team.gang (fun g => { g with written := g.written.filter (fun p => !(p.1 / 128 = pa / 128 && r.1.getLsbD (p.1 % 128 / 4))) })
  else r.2.mapCore (s.coreOf s.cur) (fun c => c.mapLine (pa / 128) (fun l => l.drop (l.dirty &&& r.1.setWidth 32)))

/-- DISC. -/
def execDisc (o : Ops) (s : State) : Out :=
  s.linesAfterLoads o (fun s1 lines => s1.eachLine lines .write (fun s _ _ pa => .ok (s.discard pa)))

/-- The dirty words of a line in an L1 written back; where that fails the line is held (R218). `drop` invalidates the copy. -/
def State.cleanL1 (s : State) (core pa : Nat) (drop : Bool) : Res State :=
  match (s.coreAt core).line (pa / 128) with
  | none => .ok s
  | some l =>
    if drop then
      match s.evictLine core l 0x02 with
      | .error e => .error e
      | .ok (s1, _) => .ok s1
    else
      match s.writeBackLine core l 0x02 with
      | .ok s1 => .ok s1
      | .error (.wait r, s1) => .error (.wait r, s1)
      | .error (_, s1) => .ok (s1.holdLine core (pa / 128))

/-- FLUSH, and FLUSH.all. -/
def execFlush (o : Ops) (s : State) : Out :=
  s.linesAfterLoads o (fun s1 lines => s1.eachLine lines .read (fun s _ _ pa =>
    match s.cleanL1 (s.coreOf s.cur) pa false with
    | .ok s1 => .ok (if o.var.getLsbD 0 then s1.mapMem (fun m => m.cleanLine (pa / 128)) else s1)
    | .error e => .error e))

/-- INV. -/
def execInv (o : Ops) (s : State) : Out :=
  s.linesAfterLoads o (fun s1 lines => s1.eachLine lines .read (fun s _ _ pa => s.cleanL1 (s.coreOf s.cur) pa true))

end Sys2Proof.Machine
end

