-- ==== Sys2Proof/Machine/Atomics.lean ====
section
/-! DEFINITION. Atomics, fences and waits on words of class 8 (R47 to R51, R191 to R202, R387, R388). -/
namespace Sys2Proof.Machine

/-! ### Atomics (R191 to R194) -/

/-- The new word of an operation on the old word and the operands (R192). -/
def atomicNew (op : Nat) (signed : Bool) (w m x x2 : Nat) : Nat :=
  let less (a b : Nat) : Bool := decide (intOf signed w a < intOf signed w b)
  match op with
  | 0 => (m + x) % 2 ^ w
  | 1 => if less x m then x else m
  | 2 => if less m x then x else m
  | 3 => m &&& x
  | 4 => m ||| x
  | 5 => m ^^^ x
  | 6 => x
  | _ => if m = x then x2 else m

/-- The operation code of an atomic (R191). -/
def atomicCode (o : Ops) : Nat := o.var.toNat % 8

/-- Whether an op acts on one word for the team: SATOM or JOIN. -/
def isSatom (op : Nat) : Bool := op = 0x202 || op = 0x252

/-- The operand of an atomic in a lane: the vector or pair from register d on, or the scalar (R192); a JOIN adds −1 (R349). -/
def TeamRegs.atomicOperand (r : TeamRegs) (op : Nat) (ty : ElemType) (d l : Nat) : Nat :=
  if op = 0x252 then 2 ^ 64 - 1
  else if isSatom op then (r.sreg d).toNat % 2 ^ (8 * ty.size)
  else if ty.size = 8 then (r.lane d l).toNat + 2 ^ 32 * (r.lane (d + 1) l).toNat
  else (r.lane d l).toNat

/-- The registers between the compare value and the new value of .cas (R192). -/
def casStep (op : Nat) (ty : ElemType) : Nat := if isSatom op then 1 else if ty.size = 8 then 2 else 1

/-- The word and the old values that a group leaves, its lanes in ascending order (R194). -/
def atomicRun (r : TeamRegs) (op : Nat) (o : Ops) (m : Nat) (lanes : List Nat) : Nat × List (Nat × DWord) :=
  let d := o.d.num.toNat
  lanes.foldl (fun (p : Nat × List (Nat × DWord)) l =>
    (atomicNew (atomicCode o) o.ty.isSigned (8 * o.ty.size) p.1 (r.atomicOperand op o.ty d l)
      (r.atomicOperand op o.ty (d + casStep op o.ty) l),
     p.2 ++ [(l, BitVec.ofNat 64 p.1)])) (m, [])

/-- The lanes of an atomic with their addresses: with variant [23] the index is scaled by the element size (R191). -/
def State.atomicLanes (s : State) (op : Nat) (o : Ops) : List (Nat × DWord) :=
  let sc := if o.var.getLsbD 3 then Nat.log2 o.ty.size else 0
  if isSatom op then [(0, s.regs.scalarAddress o sc)] else s.regs.addresses s.tw o (s.regs.source o.a) sc

/-- The place of a group of an atomic (R193, R387): `cached` is the path of home 0 or 1. -/
def State.atomicPlace (s : State) (t : Target) : Option AtomicPlace :=
  match t with
  | .scratch off => some (.scratch s.team.gang off)
  | .mem _ leaf pa (.scratch g off) => if leaf.home = 2 then some (.scratch g off) else some (.home pa false)
  | .mem _ leaf pa (.home _) => some (.home pa (!s.neverCached (s.ctxOf s.cur) leaf pa))
  | .mem _ _ _ (.hub off) => some (.hub off)
  | _ => none

/-- The groups of an atomic, in ascending order of their lowest lane (R194). -/
def State.atomicGroups (s : State) (lanes : List (Nat × DWord)) (ts : List (Nat × Target)) : List AtomicGroup :=
  (lanes.zip ts).foldl (fun (gs : List AtomicGroup) p =>
    match s.atomicPlace p.2.2 with
    | none => gs
    | some q =>
      if gs.any (fun g => g.va = p.1.2) then
        gs.map (fun g => if g.va = p.1.2 then { g with lanes := g.lanes ++ [p.1.1] } else g)
      else gs ++ [⟨[p.1.1], p.1.2, q⟩]) []

/-- The core's own dirty copies of the words of an atomic written back and given up, for every group before any is performed (R193). -/
def State.atomicEvict (s : State) (gs : List AtomicGroup) (n : Nat) : Res State :=
  gs.foldl (fun (r : Res State) g =>
    match r, g.place with
    | .ok s, .home pa _ => s.evictWords (s.coreOf s.cur) pa n 0x08
    | r, _ => r) (.ok s)

/-- The lines of an atomic on pages of home 1 allocated, and pinned, in their home slices (R165). -/
def State.atomicPin (s : State) (ts : List (Nat × Target)) : State :=
  ts.foldl (fun (s : State) p =>
    match p.2 with
    | .mem _ leaf pa (.home _) =>
      let path := s.pathOf none (s.ctxOf s.cur) leaf pa 0
      if path.pin && (s.hostBlocks pa true true).isNone then s.shareLine (pa / 128) (homeSlice pa) path.rank true else s
    | _ => s) s

/-- A word written at home by an atomic of the issuing team, which goes through the proxy slice of its core's die: in its home slice, or by the path of
home 3 once every slice copy of its line has been written back and invalidated (R167, R193, R219). -/
def State.atomicStore (s : State) (pa : Nat) (cached : Bool) (bs : List Byte) : State :=
  let s1 := (s.wakeSlice (proxySlice (homeSlice pa) (dieOf (s.coreOf s.cur)))).atHome (pa / 128)
  if cached || rangeOf pa = .host then s1.homeWrite pa bs else s1.mapMem (fun m => (m.flushLine (pa / 128)).setBytes pa bs)

/-- A group performed indivisibly at its place (R193, R194). At the hub it comes after the stores already on their way there (log 19). -/
def State.performGroup (s : State) (op : Nat) (o : Ops) (g : AtomicGroup) : Res (State × List (Nat × DWord)) :=
  let n := o.ty.size
  match g.place with
  | .scratch gid off =>
    if (s.gangAt gid).poisoned off n then .error (.poison g.va, s)
    else
      let r := atomicRun s.regs op o (leNat ((s.gangAt gid).scratchpad.read off n)) g.lanes
      .ok (s.mapGang gid (fun x => x.store off (leBytes n r.1)), r.2)
  | .hub off =>
    let r := atomicRun s.regs op o (leNat (s.hubComing off n)) g.lanes
    match s.writePlace (s.ctxOf s.cur) g.va.toNat (.team s.cur) (.hub off) (leBytes n r.1) [] .uncached with
    | .ok s1 => .ok (s1, r.2)
    | .error e => .error e
  | .home pa cached =>
    if s.mem.poisoned pa n then .error (.poison g.va, s)
    else
      match s.hostBlocks pa true (rangeOf pa = .host) with
      | some e => .error (e, s)
      | none =>
        let r := atomicRun s.regs op o (leNat (s.mem.bytes pa n)) g.lanes
        .ok (s.atomicStore pa cached (leBytes n r.1), r.2)

/-- The writes of an atomic's old values: a register or pair of d, lane by lane, or the scalar; RED writes none. -/
def atomicWrites (tw op : Nat) (o : Ops) (olds : List (Nat × DWord)) : List RegWrite :=
  let d := o.d.num.toNat
  if op = 0x201 then []
  else if isSatom op then olds.map (fun p => .scal d (if o.ty.isSigned then BitVec.ofNat 64 (wrap 64 (intOf true (8 * o.ty.size) p.2.toNat))
    else p.2))
  else if o.ty.size = 8 then
    [.vec d (spread tw (olds.map (fun p => (p.1, p.2.setWidth 32)))),
     .vec (d + 1) (spread tw (olds.map (fun p => (p.1, BitVec.ofNat 32 (p.2.toNat / 2 ^ 32)))))]
  else [.vec d (spread tw (olds.map (fun p => (p.1, p.2.setWidth 32))))]

/-- Whether a group on host memory goes out as one AtomicOp (R387). -/
def ioAtomic (o : Ops) (g : AtomicGroup) : Bool :=
  atomicCode o = 0 || atomicCode o = 6 || (atomicCode o = 7 && g.lanes.length = 1)

/-- UVAL of a host atomic that cannot be performed (R388). -/
def hostUval (g : AtomicGroup) (cache : Nat) (io : BitVec 3) : DWord :=
  field 16 10 (g.lanes.headD 0) ||| field 8 4 cache ||| field 0 3 io.toNat

/-- The end of an atomic or JOIN whose groups are all performed. -/
def State.atomicEnd (s : State) (op : Nat) (o : Ops) (bs : List Byte) (olds : List (Nat × DWord)) : Out :=
  if op = 0x201 then s.retire
  else if op = 0x252 then s.joinFinish o.d.num.toNat bs ((olds.map (fun p => p.2)).headD 0)
  else s.retireLong o.la (.ready (atomicWrites s.tw op o olds) 0)

/-- The groups of an atomic performed in order from the state that earlier groups left: it ends with the last group, waits for the host, or
is delivered to the handler with 0x52 (R194, R387, R388). A group that waits keeps the earlier groups performed. A team whose gang has ended meanwhile,
with the cause `ending`, takes no other and writes no register: it stands ready at its instruction boundary (R45). -/
def State.atomicGo (s : State) (op : Nat) (o : Ops) (bs : List Byte) (gs : List AtomicGroup) (olds : List (Nat × DWord))
    (ending : Option Cause := none) : Out :=
  let fail (e : Stop) : Out := .next (if ending.isSome then s.setTeam { s.team with status := .ready } else s.stopAt e)
  match gs with
  | [] => if ending.isSome && op ≠ 0x252 then .next (s.setTeam { s.team with status := .ready }) else s.atomicEnd op o bs olds
  | g :: rest =>
    let wait (viaCache : Bool) : State := s.setTeam { s.team with status := .atomicOp ⟨op, o, gs, olds, bs, viaCache, 7, ending⟩, stuck := none }
    let perform : Out :=
      match s.performGroup op o g with
      | .ok (s1, more) => s1.atomicGo op o bs rest (olds ++ more) ending
      | .error (.wait r, _) => .next ((wait true).request r)
      | .error (e, _) => fail e
    match g.place with
    | .scratch _ _ => perform
    | .hub _ => perform
    | .home pa cached =>
      if rangeOf pa ≠ .host then perform
      else if cached then perform
      else if ioAtomic o g then .next (wait false)
      else if s.fnOf (s.ctxOf s.cur) = 0 then perform
      else fail (.host (hostUval g 1 7))

/-- The checks of an atomic's lanes, the write-back of the core's own copies, and its groups (R182, R193, R372). -/
def State.atomicIssue (s : State) (op : Nat) (o : Ops) (bs : List Byte) (lanes : List (Nat × DWord)) : Out :=
  (s.targets s.cur .atomic 0x08 lanes o.ty.size).out (fun r =>
    let gs := r.1.atomicGroups lanes r.2
    (r.1.atomicEvict gs o.ty.size).out (fun s1 => ((s1.atomicPin r.2).sealInterval s1.team.gang).atomicGo op o bs gs []))

/-- An atomic from its issue: deferred results are settled first, since it may be delivered to the handler (R361). -/
def State.atomic (s : State) (op : Nat) (o : Ops) : Out :=
  ((if op = 0x201 then .ok s else s.windowRoom s.cur : Flow State)).out (fun s0 =>
  (s0.settle s0.cur).out (fun s1 =>
    let lanes := s1.atomicLanes op o
    (s1.arriveBefore s1.cur (some (laneRanges lanes o.ty.size))).out (fun s2 => s2.atomicIssue op o [] lanes)))

/-- ATOM. -/
def execAtom (o : Ops) (s : State) : Out := s.atomic 0x200 o

/-- RED. -/
def execRed (o : Ops) (s : State) : Out := s.atomic 0x201 o

/-- SATOM. -/
def execSatom (o : Ops) (s : State) : Out := s.atomic 0x202 o

/-! ### Fences (R195 to R199) -/

/-- The dirty words that a context holds in an L1 sent line by line; the words sent before one that cannot be sent stay sent (R198). A
word of a window page is discarded by the fence that meets it (R218). -/
def State.releaseLines (s : State) (core ctx : Nat) (lines : List L1Line) : State × Option Stop :=
  match lines with
  | [] => (s, none)
  | l :: rest =>
    if l.ctx ≠ ctx || l.dirty = 0#32 then s.releaseLines core ctx rest
    else
      match s.writeBackLine core l 0x12 with
      | .ok s1 => s1.releaseLines core ctx rest
      | .error (.trap .windowKind va acc parks, s1) =>
        (s1.mapCore core (fun c => c.mapLine l.line (fun x => x.drop x.dirty)), some (.trap .windowKind va acc parks))
      | .error (.trap c va acc parks, s1) => (s1.holdLine core l.line, some (.trap c va acc parks))
      | .error (e, s1) => (s1, some e)

/-- The write-back of a release by a team at die scope or wider (R198). -/
def State.release (s : State) (u : Nat) : State × Option Stop :=
  s.releaseLines (s.coreOf u) (s.ctxOf u) (s.coreAt (s.coreOf u)).l1

/-- The clean words of a context in an L1 invalidated (R197). -/
def State.acquire (s : State) (core ctx : Nat) : State :=
  s.mapCore core (fun c => { c with
    l1 := (c.l1.map (fun l => if l.ctx = ctx then l.drop (~~~l.dirty) else l)).filter (fun l => l.valid ≠ 0#32) })

/-- Whether a fence kind releases: REL, AR, SL, SC. -/
def fenceReleases (kind : Nat) : Bool := kind ≠ 0

/-- Whether a fence kind acquires: ACQ, AR, SC. -/
def fenceAcquires (kind : Nat) : Bool := kind = 0 || kind = 2 || kind = 4

/-- Whether a fence must wait: a write of the team on its way to an apply window, which no scope counts as performed before it reaches its slot, or for
SL and SC at gpu scope or wider a fire that the team has filled (R197, R204, R206, R213). -/
def State.fenceWaits (s : State) (u kind scope : Nat) : Bool :=
  fenceReleases kind && (s.writesOf (.team u) || (4 ≤ scope && 3 ≤ kind && s.fillsPending u))

/-- The effect of a fence of the issuing team: earlier loads have their values, where the kind waits for them, dirty words are written back,
outstanding writes are waited for, clean words are invalidated. A window whose load has faulted parks the team before the fence (log 80). A
replay's fences write back nothing (R375). -/
def State.fence (s : State) (kind scope : Nat) : Flow State :=
  let u := s.cur
  match if kind = 3 then .ok s else s.arriveBefore u none with
  | .error e => .error e
  | .ok s1 =>
    if s1.gang.replay then .ok s1
    else
    let r := if fenceReleases kind && 3 ≤ scope then s1.release u else (s1, none)
    match r.2 with
    | some e => .error (r.1.stopAt e)
    | none =>
      if r.1.fenceWaits u kind scope then .error r.1
      else .ok (if fenceAcquires kind && 3 ≤ scope then r.1.acquire (r.1.coreOf u) (r.1.ctxOf u) else r.1)

/-- FENCE. -/
def execFence (o : Ops) (s : State) : Out := (s.fence o.var.toNat o.ty.code.toNat).out (fun s1 => s1.retire)

/-! ### Waits (R47 to R51, R200 to R202) -/

/-- Whether the wait tag of a blocking wait on an address or with a peer passes its check at issue (R47). -/
def State.tagPasses (s : State) (mode : BitVec 2) (peer : DWord) : Bool :=
  let d := s.dispatchOf s.cur
  match mode.toNat with
  | 0 => true
  | 1 => d.parallel && !d.cont && decide (peer.toNat < s.gang.glin)
  | 2 => true
  | _ => false

/-- Whether a word satisfies a condition against a value (R200). -/
def condHolds (cond : BitVec 2) (ty : ElemType) (w v : Nat) : Bool :=
  let b := 8 * ty.size
  match cond.toNat with
  | 0 => w % 2 ^ b = v % 2 ^ b
  | 1 => w % 2 ^ b ≠ v % 2 ^ b
  | _ => decide (intOf ty.isSigned b v ≤ intOf ty.isSigned b w)

/-- The word that a wait of a team evaluates, read where an atomic would be performed (R193, R201). -/
def State.waitWord (s : State) (u : Nat) (ea : DWord) (n : Nat) : Res (State × Nat) :=
  match s.targets u .wait 0x01 [(0, ea)] n with
  | .error e => .error e
  | .ok (s1, ts) =>
    match ts with
    | (_, .mem va leaf pa place) :: _ =>
      let path := { s1.pathOf (some (s1.coreOf u)) (s1.ctxOf u) leaf pa 0 with via := none }
      let replay := (s1.gangAt (s1.teamAt u).gang).replay
      let own : Res State := match place, replay with
        | .home pa, false => s1.evictWords (s1.coreOf u) pa n 0x01
        | _, _ => .ok s1
      match own with
      | .error e => .error e
      | .ok s2 =>
        match if replay then s2.replayRead (s2.teamAt u).gang va place n path else s2.readHome va place n path with
        | .error e => .error e
        | .ok (s3, bs) => .ok (s3, leNat bs)
    | (_, t) :: _ =>
      match s1.readTarget u t n 0 with
      | .error e => .error e
      | .ok (s2, bs) => .ok (s2, leNat bs)
    | [] => .ok (s1, 0)

/-- A team made to wait from this cycle on (R43, R50, R264). -/
def State.startWait (s : State) (k : WaitKind) : State :=
  s.setTeam { s.team with status := .waiting ⟨k, 0, false, s.cycles⟩, stuck := none }

/-- The value that b names for a wait, at the type's width. -/
def State.waitValue (s : State) (o : Ops) : DWord := BitVec.ofNat 64 ((s.regs.source o.b).toNat % 2 ^ (8 * o.ty.size))

/-- The ticks that the hint of a try-wait names (R202). -/
def hintTicks (code : Nat) : Nat := 256 * 16 ^ code

/-- A wait on a word, evaluated as it issues. -/
def State.waitOnWord (s : State) (o : Ops) (cond : BitVec 2) (hint : Option Nat) (d : Nat) : Out :=
  let ea := s.regs.source o.a
  (s.arriveBefore s.cur (some [(ea.toNat, o.ty.size)])).out (fun s1 =>
    (s1.waitWord s1.cur ea o.ty.size).out (fun r =>
      if condHolds cond o.ty r.2 (s1.waitValue o).toNat then (r.1.setS d 1).retire
      else .next (r.1.startWait (.word ea cond o.ty (s1.waitValue o) hint d))))

/-- WAITA. -/
def execWaita (o : Ops) (s : State) : Out :=
  if !s.tagPasses o.mode (s.sreg o.d.num.toNat) then s.trapEnd .illegalWait
  else if o.var.toNat % 4 = 3 || 4 ≤ o.var.toNat then s.trapWord .illegalInstruction (.waita o)
  else s.waitOnWord o (o.var.setWidth 2) none 0

/-- TRYWAIT. -/
def execTrywait (o : Ops) (s : State) : Out :=
  s.waitOnWord o (o.var.setWidth 2) (some (hintTicks (o.var.toNat / 4))) o.d.num.toNat

end Sys2Proof.Machine
end

