-- ==== Sys2Proof/Machine/Barriers.lean ====
section
/-! DEFINITION. Named barriers and their instructions, with the rollback shadows that the phases of b0 take (R339 to R348, R371). -/
namespace Sys2Proof.Machine

/-! ### Barriers (R339 to R343) -/

/-- A named barrier of a gang. -/
def State.barrier (s : State) (g b : Nat) : Barrier := (s.gangAt g).barriers.get .none b

/-- A named barrier changed. -/
def State.mapBarrier (s : State) (g b : Nat) (f : Barrier → Barrier) : State :=
  s.mapGang g (fun x => { x with barriers := x.barriers.set b (f (x.barriers.get .none b)) })

/-- δ of a token against the current phase (R343). -/
def tokenAge (phase token : BitVec 16) : Nat := (phase - token).toNat

/-- The result word of a wait on a barrier (R347). -/
def barrierResult (done stale : Bool) (phase : BitVec 16) : DWord := flag 17 done ||| flag 16 stale ||| phase.setWidth 64

/-- A team captured for the rollback shadow at its return from a BARSYNC on b0, while the interval is not sealed (R371). -/
def State.captureTeam (s : State) (u : Nat) : State :=
  let g := (s.teamAt u).gang
  if (s.dispatchAt (s.gangAt g).dispatch).rollback && !(s.gangAt g).isSealed then
    s.mapTeam u (fun t => { t with shadow := some t.regs, shadowH := t.h })
  else s

/-- The teams of a gang that wait on a barrier: team, token, whether by BARSYNC, destination. -/
def State.barrierWaiters (s : State) (g b : Nat) : List (Nat × BitVec 16 × Bool × Nat) :=
  (s.teamsOf g).filterMap (fun u =>
    match (s.teamAt u).status with
    | .waiting w => match w.kind with
      | .barrier b' t sync _ d => if b' = b then some (u, t, sync, d) else none
      | _ => none
    | _ => none)

/-- The waits whose phase has completed released (R340). -/
def State.releaseWaiters (s : State) (g b : Nat) : State :=
  (s.barrierWaiters g b).foldl (fun (s : State) w =>
    let phase := (s.barrier g b).phase
    if tokenAge phase w.2.1 = 0 then s
    else
      let s1 := s.finishWait w.1 w.2.2.2 (barrierResult true false phase)
      if w.2.2.1 && b = 0 then s1.captureTeam w.1 else s1) s

/-- The shadow or seal that the completion of a phase of b0 brings to a rollback gang: a team that has exited by then is in the shadow as it is, with no
registers to issue from (R371). -/
def State.phaseShadow (s : State) (g : Nat) (bySync : Bool) : State :=
  if !(s.dispatchAt (s.gangAt g).dispatch).rollback || (s.gangAt g).replay then s
  else if bySync then
    let s1 := s.mapGang g (fun x => { x with shadow := some ⟨x.scratchpad, x.barriers, x.queues⟩, isSealed := false, rollbacks := 0 })
    (s1.teamsOf g).foldl (fun (s : State) u => if (s.teamAt u).status = .exited then s.mapTeam u (fun t => { t with shadow := none }) else s) s1
  else s.mapGang g (fun x => { x with isSealed := true })

/-- complete(b) of R340. -/
def State.completePhase (s : State) (g b : Nat) : State :=
  let bySync := (s.barrier g b).bySync
  let s1 := (s.mapBarrier g b (fun x => { x with arrivals := 0, arrived := 0, phase := x.phase + 1, bySync := true })).count g 11 1
  let s2 := if b = 0 then s1.phaseShadow g bySync else s1
  s2.releaseWaiters g b

/-- The phase condition checked after a change (R340). -/
def State.checkPhase (s : State) (g b : Nat) : State :=
  let x := s.barrier g b
  if x.expected ≤ x.arrivals && x.balance = 0 then s.completePhase g b else s

/-- One arrival: the count saturates, and for b0 the team's arrival bit is set (R339, R340, R346). -/
def Barrier.arrive (x : Barrier) (b teamid : Nat) (sync : Bool) : Barrier :=
  { x with
    arrivals := min 65535 (x.arrivals + 1)
    arrived := if b = 0 then x.arrived ||| (1#16 <<< teamid) else x.arrived
    bySync := x.bySync && sync }

/-- A barrier changed by one instruction or credit, and its phase condition checked. `rank` is its place among the changes of one cycle: the team
slot, or 1,024 for an engine (R340, R341). -/
def State.changeBarrier (s : State) (g b rank : Nat) (f : Barrier → Barrier) : State :=
  (s.mapBarrier g b (fun x => { f x with stamp := (s.cycles, rank) })).checkPhase g b

/-- Whether a change by the issuing team's instruction comes after a change of the same cycle that it must precede: it then reaches the barrier in a
later cycle (R341; log 79). -/
def State.tooLate (s : State) (g b : Nat) : Bool :=
  let x := (s.barrier g b).stamp
  x.1 = s.cycles && decide (s.team.slot < x.2)

/-- Bytes credited to a barrier by an engine (R278, R310). -/
def State.creditBarrier (s : State) (g b n : Nat) : State :=
  s.changeBarrier g b 1024 (fun x => { x with balance := x.balance - BitVec.ofNat 64 n })

/-- A team removed from b0 at its exit (R342). -/
def State.leaveBarrier (s : State) (g slot teamid : Nat) : State :=
  s.changeBarrier g 0 slot (fun x =>
    let was := x.arrived.getLsbD teamid
    { x with
      expected := x.expected - 1
      arrivals := if was then x.arrivals - 1 else x.arrivals
      arrived := x.arrived &&& ~~~(1#16 <<< teamid) })

/-! ### The instructions (R344 to R348) -/

/-- The barrier that a field names. -/
def barrierOf (x : Src) : Nat := x.num.toNat

/-- BARINIT (R345). -/
def execBarinit (o : Ops) (s : State) : Out :=
  let b := o.d.num.toNat
  let n := (s.regs.source o.a).toNat
  let g := s.team.gang
  let stamp := (s.cycles, s.team.slot)
  if b = 0 || n = 0 || 65535 < n then s.trapEnd .illegalRegister
  else if s.tooLate g b then .next s
  else if (s.barrier g b).init then
    ((s.completePhase g b).mapBarrier g b (fun x => { x with expected := n, arrivals := 0, balance := 0, stamp := stamp })).retire
  else ((s.mapBarrier g b (fun _ => ⟨true, g, n, 0, 0, 0, 0, true, stamp⟩)).mapGang g (fun x => { x with badSync := x.badSync.erase (.barrier b) })).retire

/-- The phase of a barrier as a token. -/
def State.token (s : State) (g b : Nat) : BitVec 16 := (s.barrier g b).phase

/-- A release or acquire at gang scope: every earlier load of the team has its value before what follows (R197, R212). -/
def State.ordered (s : State) (f : State → Out) : Out := (s.arriveBefore s.cur none).out f

/-- A release at gang scope: it waits, as a stall, for the team's writes on their way to an apply window too (R204, R206, R212). -/
def State.released (s : State) (f : State → Out) : Out := s.ordered (fun s => if s.writesOf (.team s.cur) then .next s else f s)

/-- BARARR (R346). -/
def execBararr (o : Ops) (s : State) : Out :=
  let b := barrierOf o.a
  let g := s.team.gang
  if !(s.barrier g b).init then s.trapEnd .illegalRegister
  else if s.tooLate g b then .next s
  else
    s.released (fun s =>
      ((s.changeBarrier g b s.team.slot (fun x => x.arrive b s.team.teamid false)).setS o.d.num.toNat ((s.token g b).setWidth 64)).retire)

/-- BARTX, and BARTX.arr (R346). -/
def execBartx (o : Ops) (s : State) : Out :=
  let b := barrierOf o.a
  let g := s.team.gang
  let x := s.regs.source o.b
  if !(s.barrier g b).init then s.trapEnd .illegalRegister
  else if s.tooLate g b then .next s
  else if o.var.getLsbD 0 then
    s.released (fun s =>
      ((s.changeBarrier g b s.team.slot (fun k => { k with balance := k.balance + x }.arrive b s.team.teamid false)).setS o.d.num.toNat
        ((s.token g b).setWidth 64)).retire)
  else (s.changeBarrier g b s.team.slot (fun k => { k with balance := k.balance + x })).retire

/-- Whether a `.g` wait on a barrier passes its tag check (R47, R48). -/
def State.barrierTag (s : State) (mode : BitVec 2) (b : Nat) : Bool :=
  mode = 0 && (s.barrier s.team.gang b).init && (s.barrier s.team.gang b).gang = s.team.gang

/-- A wait for the phase of a token: it returns at once when the phase has completed, else it blocks (R343, R347). -/
def State.waitPhase (s : State) (b : Nat) (t : BitVec 16) (sync : Bool) (hint : Option Nat) (d : Nat) : Out :=
  let phase := s.token s.team.gang b
  let age := tokenAge phase t
  if age = 0 then .next (s.startWait (.barrier b t sync hint d))
  else
    let s1 := (s.setS d (barrierResult true (2 ≤ age) phase)).advance
    .next (if sync && b = 0 then s1.captureTeam s.cur else s1)

/-- BARWAIT. -/
def execBarwait (o : Ops) (s : State) : Out :=
  if !s.barrierTag o.mode (barrierOf o.a) then s.trapEnd .illegalWait
  else if o.var ≠ 0 then s.trapWord .illegalInstruction (.barwait o)
  else s.ordered (fun s1 => s1.waitPhase (barrierOf o.a) ((s1.regs.source o.b).setWidth 16) false none o.d.num.toNat)

/-- The team's arrival by BARSYNC, which is a release, and its wait (R212, R347). -/
def State.syncFresh (s : State) (b d : Nat) : Out :=
  let g := s.team.gang
  if s.tooLate g b || s.writesOf (.team s.cur) then .next s
  else (s.changeBarrier g b s.team.slot (fun x => x.arrive b s.team.teamid true)).waitPhase b (s.token g b) true none d

/-- BARSYNC: it arrives and waits, or waits on the token that an ended BARSYNC of the same stream, address and barrier holds (R348). The
deferred results of a team of a rollback gang are written first, so that the shadow holds them (R361). -/
def execBarsync (o : Ops) (s : State) : Out :=
  let b := barrierOf o.a
  let d := o.d.num.toNat
  if !s.barrierTag o.mode b then s.trapEnd .illegalWait
  else if o.var ≠ 0 then s.trapWord .illegalInstruction (.barsync o)
  else
    ((if b = 0 && (s.dispatchAt s.gang.dispatch).rollback then s.settle s.cur else .ok s : Flow State)).out (fun s0 => s0.ordered (fun s1 =>
      match s1.team.heldFor b with
      | none => s1.syncFresh b d
      | some tok =>
        (s1.setTeam { s1.team with held := s1.team.held.filter (fun x => x.inHandler ≠ s1.team.h) }).waitPhase b tok true none d))

/-- BARTRYWAIT. -/
def execBartrywait (o : Ops) (s : State) : Out :=
  let b := barrierOf o.a
  if !(s.barrier s.team.gang b).init then (s.setS o.d.num.toNat (flag 18 true)).retire
  else
    s.ordered (fun s1 =>
      s1.waitPhase b ((s1.regs.source o.b).setWidth 16) false (some (hintTicks (o.var.toNat / 4))) o.d.num.toNat)

/-! ### EXIT (R129, R342) -/

/-- EXIT: the windows of its stream close, those that a handler's entry froze are discarded, and the team leaves b0. -/
def execExit (_ : Ops) (s : State) : Out :=
  if s.tooLate s.team.gang 0 then .next s
  else
    (s.closeAll s.cur).out (fun s1 =>
      .next ((s1.setTeam { s1.team with status := .exited, windows := [], frozen := [], yieldTo := [], held := [], stalled := none, stuck := none }).leaveBarrier
        s1.team.gang s1.team.slot s1.team.teamid))

end Sys2Proof.Machine
end

