-- ==== Sys2Proof/Machine/Coherence.lean ====
section
/-! DEFINITION. Write-backs of the L1s and slices, and the messages of the home directories (R168, R170, R173, R219, R220). Every message
moves copies and ownership of words; the value of a word in home order never changes. -/
namespace Sys2Proof.Machine

/-! ### Write-backs (R168, R170, R218, R220) -/

/-- A write-back that the L1 makes of itself: one that fails translation leaves the line held, and one that must wait for the host asks. -/
def State.drainLine (s : State) (core line : Nat) : State :=
  match s.cleanL1 core (128 * line) false with
  | .ok s1 => s1
  | .error (.wait r, s1) => s1.request r
  | .error (_, s1) => s1

/-- L1_DRAIN (R170). -/
def execL1Drain (core line : Nat) (s : State) : Out := .next (s.drainLine core line)

/-- WRITE_BACK: dirty words of a line written back from an L1 to the home, or from a slice to the memory behind it. -/
def execWriteBack (site : CacheSite) (line : Nat) (s : State) : Out :=
  match site with
  | .l1 core => .next (s.drainLine core line)
  | .slice sl => .next ((s.atHome line).mapMem (fun m => m.writeBackSlice line sl))

/-! ### Messages (R220): the slice that a message reaches is woken (R16) -/

/-- The first message of a line that a test accepts. -/
def Mem.message (m : Mem) (line : Nat) (p : CohMsg → Bool) : Option CohMsg := (m.msgs.find? (fun x => x.1 = line && p x.2)).map (fun x => x.2)

/-- The memory with a message taken. -/
def Mem.take (m : Mem) (line : Nat) (x : CohMsg) : Mem := { m with msgs := m.msgs.erase (line, x) }

/-- Whether a message is a request at the home. -/
def CohMsg.isRequest (x : CohMsg) : Bool := match x with | .ownership _ _ => true | .shared _ => true | _ => false

/-- The oldest request for a line, which the home serves. -/
def Mem.request (m : Mem) (line : Nat) : Option CohMsg := m.message line CohMsg.isRequest

/-- REQUEST_FOR_OWNERSHIP (R220). -/
def execRequestForOwnership (slice line : Nat) (words : Word32) (s : State) : Out :=
  let x : CohMsg := .ownership slice words
  if !isProxy slice line || words = 0#32 || s.mem.msgs.contains (line, x) then .next s
  else .next ((s.atHome line).mapMem (fun m => m.send line x))

/-- SHARED_READ (R220). -/
def execSharedRead (slice line : Nat) (s : State) : Out :=
  let x : CohMsg := .shared slice
  if !isProxy slice line || s.mem.msgs.contains (line, x) then .next s else .next ((s.atHome line).mapMem (fun m => m.send line x))

/-- FORWARD_READ: the home forwards the shared read that it serves to an owner (R220). -/
def execForwardRead (line : Nat) (s : State) : Out :=
  match s.mem.request line with
  | some (.shared r) =>
    match ((s.mem.dirAt line).others r 0xFFFFFFFF).find? (fun o => !s.mem.msgs.contains (line, .forwardRead r o)) with
    | some o => .next ((s.wakeSlice o).mapMem (fun m => m.send line (.forwardRead r o)))
    | none => .next s
  | _ => .next s

/-- FORWARD_FOR_OWNERSHIP: the home forwards the ownership request that it serves to an owner of named words (R220). -/
def execForwardForOwnership (line : Nat) (s : State) : Out :=
  match s.mem.request line with
  | some (.ownership r words) =>
    let e := s.mem.dirAt line
    match (e.others r words).find? (fun o => !s.mem.msgs.contains (line, .forwardOwn r o (e.ownedBy o &&& words))) with
    | some o => .next ((s.wakeSlice o).mapMem (fun m => m.send line (.forwardOwn r o (e.ownedBy o &&& words))))
    | none => .next s
  | _ => .next s

/-- FORWARD_ACKNOWLEDGEMENT: an owner's acknowledgement reaches the home (R220). -/
def execForwardAcknowledgement (line : Nat) (s : State) : Out :=
  match s.mem.message line (fun x => match x with | .forwardAck _ => true | _ => false) with
  | some x => .next ((s.atHome line).mapMem (fun m => m.take line x))
  | none => .next s

/-- INVALIDATION: the home sends an invalidation to a sharer, for the ownership request that it serves (R220). -/
def execInvalidation (line : Nat) (s : State) : Out :=
  match s.mem.request line with
  | some (.ownership r _) =>
    match (s.mem.sharersOf line r).find? (fun q => !s.mem.msgs.contains (line, .invalidate q)) with
    | some q => .next ((s.wakeSlice q).mapMem (fun m => m.send line (.invalidate q)))
    | none => .next s
  | _ => .next s

/-- The clean words of a line dropped from the L1s of a die (R220). -/
def State.invalidateL1s (s : State) (die line : Nat) : State :=
  { s with cores := s.cores.mapValues (fun c k =>
    if dieOf c = die then match k.line line with
      | some l => k.setLine (l.drop (~~~l.dirty))
      | none => k
    else k) }

/-- INVALIDATION_ACK: a sharer drops the words of its copy that it does not own, passes the invalidation to its die's L1s, and acknowledges
(R220). -/
def execInvalidationAck (line : Nat) (s : State) : Out :=
  match s.mem.message line (fun x => match x with | .invalidate _ => true | _ => false) with
  | some (.invalidate q) =>
    let e := s.mem.dirAt line
    let s1 := s.mapMem (fun m =>
      ((m.take line (.invalidate q)).setCopy line q ((m.copy line q).drop (~~~e.ownedBy q))).setDir line e.owners (e.sharers &&& ~~~dieBit q))
    .next (s1.invalidateL1s (sliceDie q) line)
  | _ => .next s

/-- The request that the home serves is done where the requester holds what it asked for, or has no room for the line. -/
def Mem.finishRequest (m : Mem) (line : Nat) : Mem :=
  let gone (r : Nat) : Bool := (m.copies.find (copyKey line r)).isNone
  match m.request line with
  | some (.ownership r words) => if gone r || (m.dirAt line).ownedBy r &&& words = words then m.take line (.ownership r words) else m
  | some (.shared r) => if gone r || (m.copy line r).valid = 0xFFFFFFFF#32 then m.take line (.shared r) else m
  | _ => m

/-- A forward answered by its owner: the line goes to the requester, which shares it or takes the owner's words, and an acknowledgement to the
home (R220). -/
def State.answerForward (s : State) (line : Nat) (x : CohMsg) : State :=
  let held (s : State) (r : Nat) : Bool := (s.mem.copies.find (copyKey line r)).isSome
  match x with
  | .forwardRead r o =>
    ((s.mapMem (fun m => m.take line x)).shareLine line r 1 false).mapMem (fun m => (m.send line (.forwardAck o)).finishRequest line)
  | .forwardOwn r o words =>
    let s1 := (s.mapMem (fun m => m.take line x)).shareLine line r 1 false
    s1.mapMem (fun m =>
      let m1 := if held s1 r then m.giveWords line r (words &&& (m.dirAt line).ownedBy o) else m
      ((m1.dropWords line o (~~~(m1.dirAt line).ownedBy o)).send line (.forwardAck o)).finishRequest line)
  | _ => s

/-- The home's own answer to the request that it serves: a grant of ownership once no other slice owns or shares the named words and the
host holds no copy, or the line for a shared read once every owner has sent its words (R215, R220). -/
def State.answerRequest (s0 : State) (line : Nat) : State :=
  let s := s0.atHome line
  let m := s.mem
  let e := m.dirAt line
  match m.request line with
  | some (.ownership r words) =>
    if (e.others r words).isEmpty && (m.sharersOf line r).isEmpty && (s.hostBlocks (128 * line) true true).isNone then
      (s.ownWords line r words 1).mapMem (fun m => m.finishRequest line)
    else s
  | some (.shared r) =>
    if e.owners.all (fun p => p.2 = r || (m.copy line r).valid.getLsbD p.1) && (s.hostBlocks (128 * line) false true).isNone then
      (s.shareLine line r 1 false).mapMem (fun m => m.finishRequest line)
    else s
  | _ => s

/-- LINE_DATA_TRANSFER: a line sent with a word mask, by an owner that a forward has reached or by the home (R220). -/
def execLineDataTransfer (line : Nat) (s : State) : Out :=
  match s.mem.message line (fun x => match x with | .forwardRead _ _ => true | .forwardOwn _ _ _ => true | _ => false) with
  | some x => .next (s.answerForward line x)
  | none => .next (s.answerRequest line)

/-- RECALL (R220). -/
def execRecall (line : Nat) (s : State) : Out := .next ((s.atHome line).mapMem (fun m => m.recallLine line))

/-- HARDWARE_PREFETCH: a line filled into its home slice and perhaps an L1; one that would fault, or of a page never cached, is dropped
(R166). -/
def execHardwarePrefetch (core ctx : Nat) (va : DWord) (intoL1 : Bool) (s : State) : Out :=
  match s.translate ⟨some core, none⟩ ctx va.toNat .read 0 with
  | .error _ => .next s
  | .ok (s1, leaf, pa) =>
    if s1.neverCached ctx leaf pa then .next s
    else .next (s1.prefetchLine core ctx va.toNat pa (s1.pathOf (some core) ctx leaf pa 0) false intoL1)

end Sys2Proof.Machine
end

