-- ==== Sys2Proof/Machine/Control.lean ====
section
/-! DEFINITION. The control-flow instructions of class 1 other than EXIT (R124 to R128, R130). -/
namespace Sys2Proof.Machine

/-- The target of an L-form transfer: PC + 8 × sext(imm), computed exactly (R124). -/
def State.target8 (s : State) (imm : BitVec 32) : Int := (s.regs.pc.toNat : Int) + 8 * imm.toInt

/-- A conditional branch: to T where the condition holds, else to the next instruction (R125). -/
def State.branchIf (s : State) (taken : Bool) (imm : BitVec 32) : Out :=
  if taken then s.transfer (s.target8 imm) id else s.retire

/-- BR. -/
def execBr (o : LOps) (s : State) : Out := s.branchIf true o.imm

/-- BZ. -/
def execBz (o : LOps) (s : State) : Out := s.branchIf (s.sreg o.a.toNat = 0) o.imm

/-- BNZ. -/
def execBnz (o : LOps) (s : State) : Out := s.branchIf (s.sreg o.a.toNat ≠ 0) o.imm

/-- BLT. -/
def execBlt (o : LOps) (s : State) : Out := s.branchIf (decide ((s.sreg o.d.toNat).toInt < (s.sreg o.a.toNat).toInt)) o.imm

/-- em AND a mask, over the words that exist (R125). -/
def State.emAnd (s : State) (m : Mask) : Mask := s.regs.em &&& m &&& laneMask s.tw

/-- BANY. -/
def execBany (o : LOps) (s : State) : Out := s.branchIf (s.emAnd (s.regs.kreg o.a.toNat) ≠ 0) o.imm

/-- BALL. -/
def execBall (o : LOps) (s : State) : Out := s.branchIf (s.emAnd (~~~(s.regs.kreg o.a.toNat)) = 0) o.imm

/-- BNONE. -/
def execBnone (o : LOps) (s : State) : Out := s.branchIf (s.emAnd (s.regs.kreg o.a.toNat) = 0) o.imm

/-- The link written to a scalar register of the issuing team. -/
def linkTo (d : Nat) (x : DWord) (s : State) : State := s.setS d x

/-- JMP (R127): T is read before the link is written. -/
def execJmp (o : Ops) (s : State) : Out :=
  s.transfer (s.regs.source o.a).toNat (linkTo o.d.num.toNat (s.regs.pc + 8))

/-- CALL (R126). -/
def execCall (o : LOps) (s : State) : Out := s.transfer (s.target8 o.imm) (linkTo o.d.toNat (s.regs.pc + 8))

/-- RET (R127). -/
def execRet (o : Ops) (s : State) : Out := s.transfer (s.regs.source o.a).toNat id

/-- LOOP (R128): a target that fails leaves the counter alone. -/
def execLoop (o : LOps) (s : State) : Out :=
  let n := s.sreg o.d.toNat - 1
  if n ≠ 0 then s.transfer (s.target8 o.imm) (linkTo o.d.toNat n) else (s.setS o.d.toNat n).retire

end Sys2Proof.Machine
end

