-- ==== Sys2Proof/Machine/Completion.lean ====
section
/-! DEFINITION. The commands of a footprint scheduler by number, what a command's completion writes, and the epilogue's output queue with the end of
a drain (R210, R276, R278, R284, R308, R310, R312). -/
namespace Sys2Proof.Machine

/-! ### Commands -/

/-- A command in a scheduler by its number. -/
def Core.command (c : Core) (id : Nat) : Option Cmd := c.cmds.find? (fun x => x.id = id)

/-- A command of a scheduler changed. -/
def Core.mapCommand (c : Core) (id : Nat) (f : Cmd → Cmd) : Core := { c with cmds := c.cmds.map (fun x => if x.id = id then f x else x) }

/-- The scheduler without a command. -/
def Core.dropCommand (c : Core) (id : Nat) : Core := { c with cmds := c.cmds.filter (fun x => x.id ≠ id) }

/-- A word written to a gang's scratchpad by an agent outside its core, in the core store or in its image (R284). -/
def State.storeGang (s : State) (g off : Nat) (bs : List Byte) : State :=
  match (s.gangAt g).state with
  | .resident => s.mapGang g (fun x => x.store off bs)
  | .saved => s.mapGang g (fun x => x.store off bs)
  | _ => s

/-- A command's completion word and credit written, and the command gone: `bytes` are its payload. A gang that has left its core takes
neither. A credit to a poisoned barrier is consumed instead (R175, R373). -/
def State.completeCommand (s : State) (core : Nat) (x : Cmd) (bytes : Nat) : State :=
  let s1 := s.mapCore core (fun k => k.dropCommand x.id)
  if (s1.gangAt x.gang).state ≠ .resident then s1
  else
    let s2 := match x.completion.word with
      | some (off, v) => s1.mapGang x.gang (fun g => g.store off (leBytes 4 v.toNat))
      | none => s1
    match x.completion.barrier with
    | some b =>
      if (s2.gangAt x.gang).badSync.contains (.barrier b) then s2.charge x .errorConsumed 0 0 none else s2.creditBarrier x.gang b bytes
    | none => s2

/-! ### The epilogue's output (R308, R310, R312) -/

/-- The words that the epilogue holds placed in its output queue, as far as there is room (R312). -/
def Engine.feed (e : Engine) : Engine :=
  match e.drain with
  | none => e
  | some d =>
    let n := min d.words.length (4096 - e.outq.length)
    { e with outq := e.outq ++ d.words.take n, drain := some { d with words := d.words.drop n } }

/-- The configuration captured with a passed tile (R310). -/
def Engine.capturedCfg (e : Engine) (t : Nat) : EpConfig := e.captured.get .first t

/-- The end of a drain whose words are all placed: the tile opens, the drained count rises, and its ACCADV completes with the bytes that it has
written (R308, R310). -/
def State.endDrain (s : State) (core bytes : Nat) : State :=
  let k := s.coreAt core
  match k.engine.drain with
  | none => s
  | some d =>
    let s1 := s.mapCore core (fun k => { k with engine := { k.engine with
      states := k.engine.states.put .isOpen d.tile .isOpen
      captured := k.engine.captured.erase d.tile
      passed := k.engine.passed.drop 1
      drain := none
      drained := k.engine.drained + 1 } })
    match k.command d.command with
    | some x => s1.completeCommand core x bytes
    | none => s1

/-- The epilogue's words placed as far as there is room; with its last word a drain into the queue ends (R310, R312). -/
def State.feedDrain (s : State) (core : Nat) : State :=
  let s1 := s.mapCore core (fun k => { k with engine := k.engine.feed })
  match (s1.coreAt core).engine.drain with
  | some d => if d.words.isEmpty && ((s1.coreAt core).engine.capturedCfg d.tile).toQueue then s1.endDrain core 0 else s1
  | none => s1

end Sys2Proof.Machine
end

