-- ==== Sys2Proof/Machine/Vector.lean ====
section
/-! DEFINITION. The instructions of classes 3 to 6: queue operands, the shape that the vector instructions share, and one meaning for
each (R58, R68, R109 to R112, R135 to R160). -/
namespace Sys2Proof.Machine

/-! ### Queue operands (R58, R109 to R112) -/

/-- Whether a source may be read now: a queue register must be bound to a load stream that is not exhausted or to the epilogue output
queue (R109, R110). -/
def TeamRegs.popLegal (r : TeamRegs) (x : Src) : Bool :=
  match x with
  | .queue n =>
    match r.q.find n.toNat with
    | some (.load st) => !st.done
    | some .epilogue => true
    | _ => false
  | _ => true

/-- The store stream that a destination names. -/
def TeamRegs.storeStream (r : TeamRegs) (x : Dst) : Option Stream :=
  match x with
  | .queue n =>
    match r.q.find n.toNat with
    | some (.store st) => some st
    | _ => none
  | .reg _ => none

/-- Whether a destination may be written now (R109, R111). -/
def TeamRegs.pushLegal (r : TeamRegs) (x : Dst) : Bool :=
  match x with
  | .queue _ =>
    match r.storeStream x with
    | some st => !st.done
    | none => false
  | .reg _ => true

/-- A stream with one vector popped or pushed. -/
def Stream.next (st : Stream) : Stream := { st with pos := st.pos + 1, ahead := st.ahead.drop 1 }

/-- A queue register of a team rebound. -/
def State.setBinding (s : State) (u n : Nat) (b : Binding) : State :=
  s.mapTeam u (fun t => { t with regs := { t.regs with q := t.regs.q.set n b } })

/-- Why a source cannot be popped now: a trap, or a stall. -/
inductive PopStop where
  | illegal
  | stall
  deriving DecidableEq, Repr

/-- One source popped: the state with a stream's pop made, the stream at the position of the pop, and the words of the epilogue output queue that
pops have named so far. An epilogue pop holds its words at once, as a stream that has read ahead (R110, R112). -/
def State.popSource (s : State) (u : Nat) (x : Src) (named : Nat) : Except PopStop (State × Option Stream × Nat) :=
  match x with
  | .queue n =>
    let g := (s.teamAt u).gang
    let tw := (s.gangAt g).tw
    match (s.teamAt u).regs.q.find n.toNat with
    | some (.load st) => if st.done then .error .illegal else .ok (s.setBinding u n.toNat (.load st.next), some st, named)
    | some .epilogue =>
      let words := (s.coreAt (s.gangAt g).core).engine.outq.drop named
      if words.length < tw then .error .stall else .ok (s, some ⟨0, .n32, 0, 0, 0, [words.take tw]⟩, named + tw)
    | _ => .error .illegal
  | _ => .ok (s, none, named)

/-- Words popped from the epilogue output queue of the issuing team's core: the epilogue goes on, and the interval is sealed (R112, R312, R372). -/
def State.takeWords (s : State) (n : Nat) : State :=
  let core := s.gang.core
  if n = 0 then s
  else ((s.mapCore core (fun c => { c with engine := { c.engine with outq := c.engine.outq.drop n } })).feedDrain core).sealInterval s.team.gang

/-- The active lanes of a push, with what they store. -/
def pushLanes (xs : List (Option Word32)) : List (Nat × Word32) :=
  (List.range xs.length).filterMap (fun l => (xs.getD l none).map (fun x => (l, x)))

/-- A vector pushed to a store stream: its active lanes stored as ST would store them. The load-store unit accepts a push as it issues, so that
no push finds earlier ones that are not accepted (R111; DESIGN CHOICE, log 84). -/
def State.push (s : State) (u n : Nat) (st : Stream) (xs : List (Option Word32)) : Res State :=
  let lanes := pushLanes xs
  match s.targets u .write 0x02 (lanes.map (fun p => (p.1, st.address p.1))) st.ty.size with
  | .error e => .error e
  | .ok (s1, ts) =>
    match s1.writeLanes u 0 ((ts.zip lanes).map (fun p => (p.1.1, p.1.2, leBytes st.ty.size p.2.2.toNat))) with
    | .error e => .error (e.1, s1)
    | .ok s2 => .ok (s2.setBinding u n (.store st.next))

/-! ### The shape of a vector instruction -/

/-- Whether a source is a queue register: the instruction is then long-latency (R67, R137). -/
def isQueueSrc (x : Src) : Bool := match x with | .queue _ => true | _ => false

/-- The lanes of a result; a result that is none writes no lane. -/
def VecVal.toLanes (v : VecVal) : List (Option Word32) := match v with | .lanes xs => xs | _ => []

/-- The state of an instruction that has not issued, from that in which an access of it stopped: its pops are undone (R58). -/
def State.unissued (before after : State) : State := after.setTeam before.team

/-- The outcome of a result that is ready as the instruction issues: pushed, or written to its register, at once or through a window, with `words`
words of the epilogue output queue popped. A push that stops has undone the pops: nothing has issued (R58). -/
def State.finishVector (before s : State) (o : Ops) (long : Bool) (words : Nat) (r : VecVal × Flags) : Out :=
  match o.d, s.regs.storeStream o.d with
  | .queue n, some st =>
    match s.push s.cur n.toNat st r.1.toLanes with
    | .error (e, s1) => .next ((before.unissued s1).stopAt e)
    | .ok s1 =>
      let s2 := s1.takeWords words
      if long then s2.retireLong o.la (.ready [] r.2) else (s2.writeResult s2.cur [] r.2).retire
  | _, _ =>
    let s2 := s.takeWords words
    let w := [vecWrite o.d.num.toNat r.1]
    if long then s2.retireLong o.la (.ready w r.2) else (s2.writeResult s2.cur w r.2).retire

/-- A stream whose vector has been read. -/
def Stream.holding (x : Option Stream) (e : List Word32) : Option Stream := x.map (fun st => { st with ahead := [e] })

/-- A pop whose read stops (R71, R110): with a register destination the instruction has issued, and its window holds the fault; with a
queue destination it has not, and is issued again. `after` is the state in which the read stopped. -/
def State.popStop (before after : State) (op : Nat) (o : Ops) (words : Nat) (a b : Option Stream) (e : Stop) : Out :=
  match o.d, e with
  | .reg _, .trap c va _ true => (after.takeWords words).retireLong o.la (.faulted (.pop ⟨op, o, before.regs, a, b⟩) c va)
  | _, _ => .next ((before.unissued after).stopAt e)

/-- The pops of an instruction made, in order a then b, and its result finished. The model reads a pop's elements here, or ahead of it (DESIGN
CHOICE, log 78). -/
def State.popVector (s : State) (op : Nat) (o : Ops) : Out :=
  match s.popSource s.cur o.a 0 with
  | .error .illegal => s.trapEnd .illegalRegister
  | .error .stall => .next s.stallQueue
  | .ok (s1, a, n1) =>
    match s1.popSource s1.cur o.b n1 with
    | .error .illegal => s.trapEnd .illegalRegister
    | .error .stall => .next s.stallQueue
    | .ok (s2, b, n) =>
      match s2.streamOpt s2.cur a with
      | .error (e, s3) => s.popStop s3 op o n a b e
      | .ok (s3, pa) =>
        match s3.streamOpt s3.cur b with
        | .error (e, s4) => s.popStop s4 op o n (Stream.holding a pa) b e
        | .ok (s4, pb) => s.finishVector s4 o true n (vecOp op (vecIn s.tw op o s.regs pa pb))

/-- The stream that a source pops. -/
def TeamRegs.loadStream (r : TeamRegs) (x : Src) : Option Stream :=
  match x with
  | .queue n => match r.q.find n.toNat with
    | some (.load st) => some st
    | _ => none
  | _ => none

/-- The bytes that the pops and the push of an instruction name. -/
def TeamRegs.streamRanges (r : TeamRegs) (tw op : Nat) (o : Ops) : List (Nat × Nat) :=
  (Pending.pop ⟨op, o, r, r.loadStream o.a, r.loadStream o.b⟩).ranges tw
    ++ (match r.storeStream o.d with
      | some st => (List.range tw).map (fun l => ((st.address l).toNat, st.ty.size))
      | none => [])

/-- A vector instruction of classes 3 to 6 (R58, R68, R109, R135, R136): `long` says that it is long-latency without a queue source. What it
pops or pushes comes after the team's earlier loads (R111, R187). -/
def State.vector (s : State) (op : Nat) (o : Ops) (long : Bool) : Out :=
  let pops := isQueueSrc o.a || isQueueSrc o.b
  let pushes : Bool := match o.d with | .queue _ => true | .reg _ => false
  if !(s.regs.popLegal o.a && s.regs.popLegal o.b && s.regs.pushLegal o.d) then s.trapEnd .illegalRegister
  else
    ((if long || pops then s.windowRoom s.cur else .ok s : Flow State)).out (fun s1 =>
      ((if pops || pushes then s1.arriveBefore s1.cur (some (s1.regs.streamRanges s1.tw op o)) else .ok s1 : Flow State)).out (fun s2 =>
        if pops then s2.popVector op o else s2.finishVector s2 o long 0 (vecOp op (vecIn s2.tw op o s2.regs [] []))))

/-! ### Class 3 (R138 to R141) -/

/-- VADD. -/
def execVadd (o : Ops) (s : State) : Out := s.vector 0x0C0 o false

/-- VSUB. -/
def execVsub (o : Ops) (s : State) : Out := s.vector 0x0C1 o false

/-- VMUL. -/
def execVmul (o : Ops) (s : State) : Out := s.vector 0x0C2 o false

/-- VMULH. -/
def execVmulh (o : Ops) (s : State) : Out := s.vector 0x0C3 o false

/-- VMAD. -/
def execVmad (o : Ops) (s : State) : Out := s.vector 0x0C4 o false

/-- VADDS. -/
def execVadds (o : Ops) (s : State) : Out := s.vector 0x0C5 o false

/-- VSUBS. -/
def execVsubs (o : Ops) (s : State) : Out := s.vector 0x0C6 o false

/-- VAND. -/
def execVand (o : Ops) (s : State) : Out := s.vector 0x0C7 o false

/-- VOR. -/
def execVor (o : Ops) (s : State) : Out := s.vector 0x0C8 o false

/-- VXOR. -/
def execVxor (o : Ops) (s : State) : Out := s.vector 0x0C9 o false

/-- VSHL. -/
def execVshl (o : Ops) (s : State) : Out := s.vector 0x0CA o false

/-- VSHR. -/
def execVshr (o : Ops) (s : State) : Out := s.vector 0x0CB o false

/-- VSAR. -/
def execVsar (o : Ops) (s : State) : Out := s.vector 0x0CC o false

/-- VMIN. -/
def execVmin (o : Ops) (s : State) : Out := s.vector 0x0CD o false

/-- VMAX. -/
def execVmax (o : Ops) (s : State) : Out := s.vector 0x0CE o false

/-- VCMP. -/
def execVcmp (o : Ops) (s : State) : Out := s.vector 0x0CF o false

/-- VSEL. -/
def execVsel (o : Ops) (s : State) : Out := s.vector 0x0D0 o false

/-- VMOV. -/
def execVmov (o : Ops) (s : State) : Out := s.vector 0x0D1 o false

/-! ### Class 4 (R142 to R145) -/

/-- FADD. -/
def execFadd (o : Ops) (s : State) : Out := s.vector 0x100 o false

/-- FSUB. -/
def execFsub (o : Ops) (s : State) : Out := s.vector 0x101 o false

/-- FMUL. -/
def execFmul (o : Ops) (s : State) : Out := s.vector 0x102 o false

/-- FFMA. -/
def execFfma (o : Ops) (s : State) : Out := s.vector 0x103 o false

/-- FMIN. -/
def execFmin (o : Ops) (s : State) : Out := s.vector 0x104 o false

/-- FMAX. -/
def execFmax (o : Ops) (s : State) : Out := s.vector 0x105 o false

/-- FCMP. -/
def execFcmp (o : Ops) (s : State) : Out := s.vector 0x106 o false

/-- FRCP. -/
def execFrcp (o : Ops) (s : State) : Out := s.vector 0x110 o true

/-- FSQRT. -/
def execFsqrt (o : Ops) (s : State) : Out := s.vector 0x111 o true

/-- FRSQ. -/
def execFrsq (o : Ops) (s : State) : Out := s.vector 0x112 o true

/-- FEXP2. -/
def execFexp2 (o : Ops) (s : State) : Out := s.vector 0x113 o true

/-- FLOG2. -/
def execFlog2 (o : Ops) (s : State) : Out := s.vector 0x114 o true

/-- FSIN. -/
def execFsin (o : Ops) (s : State) : Out := s.vector 0x115 o true

/-- FCOS. -/
def execFcos (o : Ops) (s : State) : Out := s.vector 0x116 o true

/-- FTANH. -/
def execFtanh (o : Ops) (s : State) : Out := s.vector 0x117 o true

/-! ### Class 5 (R146 to R150) -/

/-- CVT. -/
def execCvt (o : Ops) (s : State) : Out := s.vector 0x140 o false

/-- CVTS. -/
def execCvts (o : Ops) (s : State) : Out := s.vector 0x141 o false

/-- D8PACK. -/
def execD8pack (o : Ops) (s : State) : Out := s.vector 0x142 o false

/-- D8UNP. -/
def execD8unp (o : Ops) (s : State) : Out := s.vector 0x143 o false

/-- S10MK. -/
def execS10mk (o : Ops) (s : State) : Out := s.vector 0x144 o false

/-- S10AP. -/
def execS10ap (o : Ops) (s : State) : Out := s.vector 0x145 o false

/-! ### Class 6 (R151 to R158) -/

/-- XROT. -/
def execXrot (o : Ops) (s : State) : Out := s.vector 0x180 o false

/-- XBFLY. -/
def execXbfly (o : Ops) (s : State) : Out := s.vector 0x181 o false

/-- XSHFL. -/
def execXshfl (o : Ops) (s : State) : Out := s.vector 0x182 o true

/-- XBCST. -/
def execXbcst (o : Ops) (s : State) : Out := s.vector 0x183 o false

/-- XRED. -/
def execXred (o : Ops) (s : State) : Out := s.vector 0x184 o false

/-- XSCAN. -/
def execXscan (o : Ops) (s : State) : Out := s.vector 0x185 o false

/-- XFIND. -/
def execXfind (o : Ops) (s : State) : Out := s.vector 0x186 o false

/-! ### Masks (R159, R160) -/

/-- A mask operation: k(d) ← f k(a) k(b). -/
def State.maskOp (s : State) (o : Ops) (f : Mask → Mask → Mask) : Out :=
  (s.setK o.d.num.toNat (f (s.regs.kreg o.a.num.toNat) (s.regs.kreg o.b.num.toNat))).retire

/-- KAND. -/
def execKand (o : Ops) (s : State) : Out := s.maskOp o (fun x y => x &&& y)

/-- KOR. -/
def execKor (o : Ops) (s : State) : Out := s.maskOp o (fun x y => x ||| y)

/-- KXOR. -/
def execKxor (o : Ops) (s : State) : Out := s.maskOp o (fun x y => x ^^^ y)

/-- KANDN. -/
def execKandn (o : Ops) (s : State) : Out := s.maskOp o (fun x y => x &&& ~~~y)

/-- The lanes of a mask that are set, among those that exist. -/
def maskLanes (tw : Nat) (m : Mask) : List Nat := (List.range tw).filter (fun l => m.getLsbD l)

/-- KPOP. -/
def execKpop (o : Ops) (s : State) : Out :=
  (s.setS o.d.num.toNat (BitVec.ofNat 64 (maskLanes s.tw (s.regs.kreg o.a.num.toNat)).length)).retire

/-- KFIRST. -/
def execKfirst (o : Ops) (s : State) : Out :=
  (s.setS o.d.num.toNat (match maskLanes s.tw (s.regs.kreg o.a.num.toNat) with
    | l :: _ => BitVec.ofNat 64 l
    | [] => 0xFFFFFFFFFFFFFFFF)).retire

/-- EMGET. -/
def execEmget (o : Ops) (s : State) : Out := (s.setK o.d.num.toNat s.regs.em).retire

/-- EMSET. -/
def execEmset (o : Ops) (s : State) : Out := (s.setRegs (s.regs.setEm s.tw (s.regs.kreg o.a.num.toNat))).retire

/-- EMAND. -/
def execEmand (o : Ops) (s : State) : Out :=
  (s.setRegs (s.regs.setEm s.tw (s.regs.em &&& s.regs.kreg o.a.num.toNat))).retire

end Sys2Proof.Machine
end

