-- ==== Sys2Proof/Machine/Queues.lean ====
section
/-! DEFINITION. Named gang queues, work (SPAWN, JOIN, FETCHW), receive-counter waits and the binding of queue registers
(R109 to R115, R261 to R264, R270, R272, R349 to R352). -/
namespace Sys2Proof.Machine

/-! ### Named gang queues (R261 to R264) -/

/-- A named queue of a gang. -/
def State.namedQueue (s : State) (g c : Nat) : NamedQueue := (s.gangAt g).queues.get .none c

/-- A named queue changed. -/
def State.mapNamed (s : State) (g c : Nat) (f : NamedQueue → NamedQueue) : State :=
  s.mapGang g (fun x => { x with queues := x.queues.set c (f (x.queues.get .none c)) })

/-- A handle pushed into a queue that has room (R263). -/
def State.pushHandle (s : State) (g c : Nat) (x : Word32) : State :=
  let q := s.namedQueue g c
  (s.mapGang g (fun k => k.store (q.offset + 4 * ((q.head + q.count) % q.slots)) (leBytes 4 x.toNat))).mapNamed g c
    (fun k => { k with count := k.count + 1 })

/-- The scratchpad offset of the head slot. -/
def NamedQueue.headOffset (q : NamedQueue) : Nat := q.offset + 4 * q.head

/-- The handle at the head of a queue (R263). -/
def State.headHandle (s : State) (g c : Nat) : Word32 :=
  BitVec.ofNat 32 (leNat ((s.gangAt g).scratchpad.read (s.namedQueue g c).headOffset 4))

/-- A queue with its head handle popped. -/
def State.dropHandle (s : State) (g c : Nat) : State :=
  s.mapNamed g c (fun k => { k with head := (k.head + 1) % k.slots, count := k.count - 1 })

/-- A pop by a team: its destination's new value, unless the slot's word is poisoned and consumed (R175, R263). -/
def State.popHandle (s : State) (u c : Nat) (done : State → DWord → State) : State :=
  let g := (s.teamAt u).gang
  if (s.gangAt g).poisoned (s.namedQueue g c).headOffset 4 then
    s.consume u (s.teamAt u).regs.pc (BitVec.ofNat 64 (windowBase + (s.namedQueue g c).headOffset)) 0x01
  else done (s.dropHandle g c) ((s.headHandle g c).setWidth 64)

/-- The team that has been blocked longest on a queue, in pops or in pushes, the lower TEAMID first of those blocked in one cycle: its identifier
and what it waits for (R264). -/
def State.firstBlocked (s : State) (g c : Nat) (pops : Bool) : Option (Nat × WaitKind) :=
  ((s.teamsOf g).foldl (fun (b : Option (Nat × Nat × WaitKind)) u =>
    match (s.teamAt u).status with
    | .waiting w =>
      let hit : Bool := match w.kind with
        | .pop c' _ => pops && c' = c
        | .push c' _ => !pops && c' = c
        | _ => false
      if !hit then b
      else match b with
        | none => some (u, w.cycle, w.kind)
        | some x => if w.cycle < x.2.1 then some (u, w.cycle, w.kind) else b
    | _ => b) none).map (fun x => (x.1, x.2.2))

/-- The blocked operations of a queue served after a change, pushes while there is room and pops while there are handles, at most `fuel`
of them (R264). -/
def State.serveQueue (s : State) (g c fuel : Nat) : State :=
  match fuel with
  | 0 => s
  | f + 1 =>
    let q := s.namedQueue g c
    let pop : Option (Nat × Nat) := match s.firstBlocked g c true with
      | some (u, .pop _ d) => some (u, d)
      | _ => none
    let push : Option (Nat × Word32) := match s.firstBlocked g c false with
      | some (u, .push _ x) => some (u, x)
      | _ => none
    match decide (q.count < q.slots), push, decide (0 < q.count), pop with
    | true, some (u, x), _, _ => ((s.pushHandle g c x).finishWait u 0 0).serveQueue g c f
    | _, _, true, some (u, d) => (s.popHandle u c (fun s x => s.finishWait u d x)).serveQueue g c f
    | _, _, _, _ => s

/-- The blocked operations of a queue served: each team of the gang is served at most once. -/
def State.serve (s : State) (g c : Nat) : State := s.serveQueue g c 16

/-- Whether a `.g` wait on a named queue passes its tag check (R47, R48). -/
def State.queueTag (s : State) (mode : BitVec 2) (c : Nat) : Bool :=
  mode = 0 && (s.namedQueue s.team.gang c).init && (s.namedQueue s.team.gang c).gang = s.team.gang

/-- CINIT (R262). -/
def execCinit (o : Ops) (s : State) : Out :=
  let c := o.d.num.toNat
  let g := s.team.gang
  let off := (s.regs.source o.a).toNat
  let n := (s.regs.source o.b).toNat
  if n = 0 || 64 < n then s.trapEnd .illegalRegister
  else if off % 4 ≠ 0 then s.trapAt .misalignment (windowBase + off) 0
  else if s.gang.scratch < off + 4 * n then s.trapAt .windowKind (windowBase + off) 0
  else
    (((s.mapNamed g c (fun _ => ⟨true, g, off, n, 0, 0, 0⟩)).mapGang g (fun x => { x with badSync := x.badSync.erase (.queue c) })).serve
      g c).retire

/-- PUSHC (R263). In a cycle in which a TRYPOPC has found the queue empty it reaches the queue no more, since it would have come first (R264). -/
def execPushc (o : Ops) (s : State) : Out :=
  let c := o.d.num.toNat
  let g := s.team.gang
  let x : Word32 := (s.regs.source o.a).setWidth 32
  if !s.queueTag o.mode c then s.trapEnd .illegalWait
  else if o.var ≠ 0 then s.trapWord .illegalInstruction (.pushc o)
  else if (s.namedQueue g c).tried = s.cycles + 1 then .next s
  else
    s.released (fun s =>
      let q := s.namedQueue g c
      if q.count < q.slots then ((s.pushHandle g c x).serve g c).retire
      else .next (s.startWait (.push c x)))

/-- POPC (R263). -/
def execPopc (o : Ops) (s : State) : Out :=
  let c := o.a.num.toNat
  let g := s.team.gang
  if !s.queueTag o.mode c then s.trapEnd .illegalWait
  else if o.var ≠ 0 then s.trapWord .illegalInstruction (.popc o)
  else
    s.ordered (fun s =>
      if 0 < (s.namedQueue g c).count then
        .next (s.popHandle s.cur c (fun s1 x => ((s1.setS o.d.num.toNat x).serve g c).advance))
      else .next (s.startWait (.pop c o.d.num.toNat)))

/-- TRYPOPC (R263). -/
def execTrypopc (o : Ops) (s : State) : Out :=
  let c := o.a.num.toNat
  let g := s.team.gang
  let q := s.namedQueue g c
  if !q.init then (s.setS o.d.num.toNat 0).retire
  else if q.count = 0 then ((s.mapNamed g c (fun k => { k with tried := s.cycles + 1 })).setS o.d.num.toNat 0).retire
  else
    s.ordered (fun s =>
      .next (s.popHandle s.cur c (fun s1 x => ((s1.setS o.d.num.toNat (0x100000000 + x)).serve g c).advance)))

/-! ### Work (R270, R272, R349) -/

/-- The 32 bytes of a continuation record, read at home (R270, R349). One that lies within one vector register of the aperture is read from the registers
(DESIGN CHOICE, log 95). -/
def State.readRecord (s : State) (va : DWord) : Res (State × List Byte) :=
  match s.targets s.cur .read 0x01 [(0, va)] 32 with
  | .error e => .error e
  | .ok (s1, ts) =>
    match ts with
    | (_, t) :: _ => s1.readTarget s1.cur t 32 3
    | [] => .ok (s1, [])

/-- SPAWN (R270, R372). -/
def execSpawn (o : Ops) (s : State) : Out :=
  let va := s.regs.source o.a
  if va.toNat % 32 ≠ 0 then s.trapAt .misalignment va.toNat 0x01
  else
    (s.fence 1 4).out (fun s1 =>
      (s1.readRecord va).out (fun r =>
        match (r.1.sealInterval r.1.team.gang).pushContinuation r.2 with
        | (s2, .done) => s2.retireDeferred o.d.num.toNat 0
        | (s2, .full) => s2.retireDeferred o.d.num.toNat 1
        | (s2, .malformed) => s2.retireDeferred o.d.num.toNat 2))

/-- JOIN (R349). -/
def execJoin (o : Ops) (s : State) : Out :=
  let c := s.regs.source o.a
  let r := s.regs.source o.b
  if c.toNat % 8 ≠ 0 then s.trapAt .misalignment c.toNat 0x08
  else if r.toNat % 32 ≠ 0 then s.trapAt .misalignment r.toNat 0x01
  else
    (s.settle s.cur).out (fun s0 => (s0.fence 1 4).out (fun s1 =>
      (s1.targets s1.cur .atomic 0x08 [(0, c)] 8).out (fun t =>
        (t.1.readRecord r).out (fun p => p.1.atomicIssue 0x252 { o with ty := .n64 } p.2 [(0, c)]))))

/-- Whether a dispatch may be fetched from by a context: fetchable, of the context, and with gangs to hand out or indices to report
(R272). -/
def Dispatch.fetchableBy (d : Dispatch) (ctx : Nat) : Bool :=
  d.valid && d.fetchable && d.ctx = ctx && d.failed.isNone && (decide (d.next < d.count) || !d.unreported.isEmpty)

/-- The index that a gang last withdrew from a dispatch reported as finished (R272). -/
def State.reportIndex (s : State) (g target : Nat) : State :=
  match (s.gangAt g).withdrawn.get [] target with
  | [] => s
  | i :: rest => (s.mapGang g (fun x => { x with withdrawn := x.withdrawn.put [] target rest })).mapDispatch target
      (fun d => { d with unreported := d.unreported.filter (fun k => k ≠ i) })

/-- FETCHW (R272, R372). -/
def execFetchw (o : Ops) (s : State) : Out :=
  let m := (s.regs.source o.a).toNat
  let target := (s.regs.source o.b).toNat
  let g := s.team.gang
  if !s.gang.persistent then s.trapEnd .illegalInstruction
  else if m % 16 ≠ 0 then s.trapAt .misalignment (windowBase + m) 0
  else if s.gang.scratch < m + 16 then s.trapAt .windowKind (windowBase + m) 0
  else if !(s.dispatchAt target).fetchableBy (s.ctxOf s.cur) then (s.sealInterval g).retireDeferred o.d.num.toNat 1
  else if s.gang.fetches.any (fun f => f.mailbox = m) then (s.sealInterval g).retireDeferred o.d.num.toNat 2
  else
    (s.fence 1 5).out (fun s1 =>
      let s2 := (s1.mapGang g (fun x => x.store (m + 12) (leBytes 4 0))).reportIndex g target
      ((s2.mapGang g (fun x => { x with fetches := x.fetches ++ [⟨m, target⟩] })).sealInterval g).retireDeferred o.d.num.toNat 0)

/-! ### Receive counters (R295, R351, R352) -/

/-- The receive counter that a register names, where it lies in the context's range (R295, R351). -/
def State.counterOf (s : State) (x : DWord) : Option Nat :=
  let n := bitsOf x 0 12
  let c := s.ctxAt (s.ctxOf s.cur)
  if c.nbase ≤ n && n < c.nbase + c.ncnt then some n else none

/-- The value of a receive counter. -/
def State.counter (s : State) (n : Nat) : DWord := s.net.counters.get 0 n

/-- The waits on a receive counter whose condition now holds completed (R352). -/
def State.counterChanged (s : State) (n : Nat) : State :=
  s.teams.foldl (fun (s : State) p =>
    match (s.teamAt p.1).status with
    | .waiting w => match w.kind with
      | .counter n' th => if n' = n && th.toNat ≤ (s.counter n).toNat then s.finishWait p.1 0 0 else s
      | _ => s
    | _ => s) s

/-- WAITC. -/
def execWaitc (o : Ops) (s : State) : Out :=
  if o.mode ≠ 2 then s.trapEnd .illegalWait
  else if o.var ≠ 0 then s.trapWord .illegalInstruction (.waitc o)
  else
    match s.counterOf (s.regs.source o.a) with
    | none => s.trapEnd .illegalRegister
    | some n =>
      let th := s.regs.source o.b
      if th.toNat ≤ (s.counter n).toNat then s.retire else .next (s.startWait (.counter n th))

/-! ### Beds by their handles (R242) -/

/-- The slice and bed of the bed that stands where a handle names one for a context, with the handle's sequence number, and that no destruction has
ended (R242, R245). -/
def State.bedAt (s : State) (ctx : Nat) (h : BitVec 24) : Option (Nat × Nat) :=
  let n := h.toNat
  let sl := n / 8 % 128
  if n / 2 ^ 15 % 2 = 0 || n / 1024 % 32 ≠ 0 || 96 ≤ sl then none
  else
    match (s.sliceAt sl).beds.find (n % 8) with
    | some b => if b.seq.toNat = n / 65536 && b.ctx = ctx && !b.dying then some (sl, n % 8) else none
    | none => none

/-- Whether a command is the release of a handle's bed. -/
def Cmd.releases (x : Cmd) (ctx : Nat) (h : BitVec 24) : Bool :=
  match x.kind with
  | .loam l => x.isRelease && x.ctx = ctx && l.handle = h
  | _ => false

/-- Whether a release of a handle's bed has passed its point P: it has arrived in the bed's queue (R244). -/
def State.releasing (s : State) (ctx : Nat) (h : BitVec 24) : Bool :=
  (s.sliceAt (h.toNat / 8 % 128)).queue.any (fun q => (s.coreAt q.1).cmds.any (fun x => x.id = q.2 && x.releases ctx h))

/-- The slice and bed of the live bed that a handle names for a context: one that no release has ended (R242, R244). -/
def State.bedOf (s : State) (ctx : Nat) (h : BitVec 24) : Option (Nat × Nat) := if s.releasing ctx h then none else s.bedAt ctx h

/-! ### Binding queue registers (R113 to R115) -/

/-- The commands that a core's matrix command queue holds: those that have not started. -/
def Core.matrixCount (c : Core) : Nat := (c.cmds.filter (fun x => x.isMatrix && !x.started)).length

/-- The binding that QBIND records, where its checks pass (R113). -/
def State.newBinding (s : State) (o : Ops) : Except Out Binding :=
  let base := s.regs.source o.a
  let shape := s.regs.source o.b
  let stride : BitVec 32 := (shape >>> 32).setWidth 32
  let st : Stream := ⟨base, o.ty, stride, bitsOf shape 0 32, 0, []⟩
  let stream (b : Binding) : Except Out Binding :=
    if base.toNat % o.ty.size ≠ 0 || stride.toNat % o.ty.size ≠ 0 then .error (s.trapAt .misalignment base.toNat 0) else .ok b
  match o.var.toNat with
  | 1 => stream (.load st)
  | 2 => stream (.store st)
  | 3 => .ok .matrix
  | 4 => .ok .epilogue
  | 5 => .ok .copy
  | 6 => .ok .network
  | _ =>
    match s.bedOf (s.ctxOf s.cur) (base.setWidth 24) with
    | some _ => .ok (.loam (base.setWidth 24))
    | none => .error (s.trapEnd .illegalRegister)

/-- Whether a binding takes the matrix engine for the gang (R112). -/
def Binding.takesEngine (b : Binding) : Bool := match b with | .matrix => true | .epilogue => true | _ => false

/-- QBIND (R112, R113): a binding of the matrix engine stalls while another gang owns it. -/
def execQbind (o : Ops) (s : State) : Out :=
  match s.newBinding o with
  | .error out => out
  | .ok b =>
    let g := s.team.gang
    let core := s.gang.core
    let bound := s.setBinding s.cur o.d.num.toNat b
    if !b.takesEngine then bound.retire
    else
      match (s.coreAt core).engine.owner with
      | none => (bound.mapCore core (fun c => { c with engine := .first (some g) })).retire
      | some g' => if g' = g then bound.retire else .next s

/-- QUNBIND (R114). -/
def execQunbind (o : Ops) (s : State) : Out :=
  (s.setRegs { s.regs with q := s.regs.q.erase o.d.num.toNat }).retire

/-- The word of QINFO (R115). -/
def State.queueInfo (s : State) (n : Nat) : DWord :=
  let c := s.coreAt s.gang.core
  let word (pos : Nat) (done : Bool) (avail code : Nat) : DWord :=
    field 32 32 pos ||| flag 16 done ||| field 8 8 (min avail 255) ||| field 0 4 code
  match s.regs.q.find n with
  | none => 0
  | some (.load st) => word st.pos st.done st.ahead.length 1
  | some (.store st) => word st.pos st.done (if st.done then 0 else 8) 2
  | some .matrix => word 0 false (min (32 - c.matrixCount) (64 - c.cmds.length)) 3
  | some .epilogue => word 0 false (c.engine.outq.length / s.tw) 4
  | some .copy => word 0 false (64 - c.cmds.length) 5
  | some .network => word 0 false (32 - c.netq.length) 6
  | some (.loam _) => word 0 false (64 - c.cmds.length) 7

/-- QINFO (R115). -/
def execQinfo (o : Ops) (s : State) : Out := (s.setS o.d.num.toNat (s.queueInfo o.a.num.toNat)).retire

end Sys2Proof.Machine
end

