-- ==== Sys2Proof/Machine/Engines.lean ====
section
/-! DEFINITION. The footprint scheduler of a core: regions, edges, entry of commands, their completion and the charge of their faults
(R210, R251, R274 to R278, R282, R283, R359). -/
namespace Sys2Proof.Machine

/-! ### Regions and edges (R274, R275) -/

/-- Whether two byte ranges overlap. -/
def Region.meets (a b : Region) : Bool := decide (a.base < b.base + b.len) && decide (b.base < a.base + a.len)

/-- Whether a region lies in the local window. -/
def Region.isLocal (a : Region) : Bool := inWindow a.base

/-- Whether a pending command gives a new one an edge (R254, R275). -/
def Cmd.precedes (e : Cmd) (ctx gang : Nat) (kind : CmdKind) (rs : List Region) : Bool :=
  e.ctx = ctx &&
    ((match e.kind.bed, kind.bed with | some x, some y => x = y | _, _ => false)
      || e.regions.any (fun a => rs.any (fun b =>
        a.meets b && (a.writes || b.writes) && (!(a.isLocal && b.isLocal) || e.gang = gang))))

/-- A command may start when no command that it has an edge from is pending: in a scheduler, or in the image of a saved gang (R275, R284). -/
def State.unblocked (s : State) (x : Cmd) : Bool :=
  !s.cores.any (fun p => p.2.cmds.any (fun e => x.edges.contains e.id)) && !s.hub.images.any (fun i => i.cmds.any (fun e => x.edges.contains e.id))

/-- The commands among those given that wait, one through another, for a command by its number, at most `fuel` deep. -/
def waitingOn (cmds : List Cmd) (fuel : Nat) (ids : List Nat) : List Nat :=
  match fuel with
  | 0 => ids
  | f + 1 => waitingOn cmds f (ids ++ (cmds.filter (fun e => !ids.contains e.id && e.edges.any (fun k => ids.contains k))).map (fun e => e.id))

/-- A command entered in the scheduler of the issuing team's core (R275). -/
def State.enterCommand (s : State) (i : Instr) (kind : CmdKind) (rs : List Region) (completion : Completion) : State :=
  let core := s.gang.core
  let ctx := s.ctxOf s.cur
  let g := s.team.gang
  let edges := ((s.coreAt core).cmds.filter (fun e => e.precedes ctx g kind rs)).map (fun e => e.id)
  let x : Cmd := ⟨s.hub.nextCmd, s.cur, g, ctx, s.regs.pc, (encode i).getD 0, kind, rs, edges, false, false, 0, none, completion⟩
  (s.mapCore core (fun c => { c with cmds := c.cmds ++ [x] })).mapHub (fun h => { h with nextCmd := h.nextCmd + 1 })

/-- Whether a core's epilogue is stopped on a full output queue: it holds a word to place (R260, R312). -/
def Core.epilogueStopped (c : Core) : Bool :=
  (match c.engine.drain with | some d => !d.words.isEmpty | none => false) && decide (4096 ≤ c.engine.outq.length)

/-- Whether the scheduler has no room: the push stalls (R259, R260). -/
def State.schedulerFull (s : State) : Bool := 64 ≤ (s.coreAt s.gang.core).cmds.length

/-- The outcome of a push that stalls: its count runs while the epilogue is stopped (R260, R356). -/
def State.stallPush (s : State) : Out := .next (s.setTeam { s.team with stalled := some (s.team.stalled.getD 0), stuck := some true })

/-- A command pushed, or stalled at a full scheduler. -/
def State.pushCommand (s : State) (i : Instr) (kind : CmdKind) (rs : List Region) (completion : Completion) : Out :=
  if s.schedulerFull then s.stallPush else (s.enterCommand i kind rs completion).retire

/-! ### Checks that the commands share (R109, R282) -/

/-- The binding of the queue register that a command's d names (R109). -/
def State.targetOf (s : State) (o : Ops) : Option Binding := s.regs.q.find o.d.num.toNat

/-- The completion that a spec and a variant name (R278): `w` writes the word, `b` credits the barrier. -/
def completionOf (spec : DWord) (w b : Bool) : Completion :=
  ⟨if w then some (bitsOf spec 0 21, BitVec.ofNat 32 (bitsOf spec 32 32)) else none, if b then some (bitsOf spec 24 4) else none⟩

/-- Whether a zero field of a completion spec is not zero (R278). -/
def specMalformed (spec : DWord) : Bool := bitsOf spec 28 4 ≠ 0 || bitsOf spec 21 3 ≠ 0

/-- The check of a completion word's offset, R282 step 4. -/
def State.wordCheck (s : State) (off : Nat) : Option Stop :=
  if off % 4 ≠ 0 then some (stopEnd .misalignment (windowBase + off) 0)
  else if s.gang.scratch < off + 4 then some (stopEnd .windowKind (windowBase + off) 0)
  else none

/-- A range of exact addresses as a region. -/
structure Span where
  lo : Int
  hi : Int
  writes : Bool
  deriving DecidableEq, Repr

/-- The ends of a span, R282 step 6, then its place about the local window, step 7: `hi` is its last address. -/
def spanCheck (x : Span) : Option Stop :=
  let bad (a : Int) : Bool := decide (a < 0) || decide ((2 ^ 57 : Int) ≤ a)
  let acc : Byte := if x.writes then 0x22 else 0x21
  if bad x.lo then some (stopEnd .pageNotPresent (BitVec.ofInt 64 x.lo).toNat acc)
  else if bad x.hi then some (stopEnd .pageNotPresent (BitVec.ofInt 64 x.hi).toNat acc)
  else none

/-- Whether a span lies partly inside the local window and partly outside it. -/
def Span.straddles (x : Span) : Bool := decide (x.lo < windowBase) && decide ((windowBase : Int) ≤ x.hi)

/-- R282 steps 6 and 7 over the spans of a command. -/
def spansCheck (xs : List Span) : Option Stop :=
  match xs.findSome? spanCheck with
  | some e => some e
  | none => (xs.find? Span.straddles).map (fun x => stopEnd .windowKind x.lo.toNat (if x.writes then 0x22 else 0x21))

/-- A checked span as a region. -/
def Span.region (x : Span) : Region := ⟨x.lo.toNat, (x.hi - x.lo + 1).toNat, x.writes⟩

/-! ### Faults of commands (R251, R283, R317, R359) -/

/-- A cause of a command that does not park its team: the command is held until the team takes the cause, and discarded then, or at once where the
team has no boundary left; with a loam command go the later ones of its team for its bed (R251, R283, R359, R360). -/
def State.chargeEnd (s : State) (core : Nat) (x : Cmd) (c : Cause) (value : DWord) (acc : Byte) : State :=
  let s1 := if s.hasBoundary x.team then s.mapCore core (fun k => k.mapCommand x.id (fun y => { y with stopped := true }))
    else s.dropCmds (fun y => y.id = x.id || y.follows x)
  s1.charge x c value acc none

/-- A stop of a started command: it parks its team and waits, or its team is charged, or the host has not answered. -/
def State.commandStop (s : State) (core : Nat) (x : Cmd) (e : Stop) : State :=
  match e with
  | .trap c va acc parks =>
    if parks then
      (s.mapCore core (fun k => k.mapCommand x.id (fun y => { y with stopped := true }))).charge x c va acc (some (.command core x.id))
    else s.chargeEnd core x c va acc
  | .wait r => s.request r
  | .host _ => s
  | .poison va => s.chargeEnd core x .errorConsumed va 0x21

end Sys2Proof.Machine
end

