-- ==== Sys2Proof/Machine/Copy.lean ====
section
/-! DEFINITION. The copy instructions and the copy engine's steps (R277 to R284). -/
namespace Sys2Proof.Machine

/-! ### Shapes of a copy -/

/-- The payload bytes of a copy command. -/
def CopyCmd.bytes (c : CopyCmd) : Nat :=
  match c with
  | .copy _ _ n0 n1 n2 _ _ _ _ => n0 * n1 * n2
  | .fill _ _ _ n0 n1 n2 _ _ => n0 * n1 * n2
  | .gather _ _ n n0 _ _ _ _ _ => n * n0

/-- The bytes of a run per row. -/
def CopyCmd.runBytes (c : CopyCmd) : Nat :=
  match c with
  | .copy _ _ n0 _ _ _ _ _ _ => n0
  | .fill _ _ _ n0 _ _ _ _ => n0
  | .gather _ _ _ n0 _ _ _ _ _ => n0

/-- The least and greatest exact addresses of n0-byte runs from a base with two strides (R274). -/
def spanOf (base : DWord) (n0 n1 n2 : Nat) (s1 s2 : DWord) (writes : Bool) : Span :=
  let e1 : Int := ((n1 : Int) - 1) * s1.toInt
  let e2 : Int := ((n2 : Int) - 1) * s2.toInt
  ⟨base.toNat + min 0 e1 + min 0 e2, base.toNat + max 0 e1 + max 0 e2 + n0 - 1, writes⟩

/-- The spans of a copy command, in the order of R274. -/
def CopyCmd.spans (c : CopyCmd) : List Span :=
  match c with
  | .copy d src n0 n1 n2 ds1 ss1 ds2 ss2 => [spanOf src n0 n1 n2 ss1 ss2 false, spanOf d n0 n1 n2 ds1 ds2 true]
  | .fill d _ _ n0 n1 n2 ds1 ds2 => [spanOf d n0 n1 n2 ds1 ds2 true]
  | .gather d src n n0 list ty stride _ bound =>
    [spanOf list (n * ty.size) 1 1 0 0 false, spanOf src bound 1 1 0 0 false, spanOf d n0 n 1 stride 0 true]

/-- The dimensions that a variant uses: 1, 2 or 3 (R277). -/
def copyDims (o : Ops) : Nat := o.var.toNat % 4 + 1

/-- A register of the command's group. -/
def State.groupReg (s : State) (o : Ops) (i : Nat) : DWord := s.sreg (o.a.num.toNat + i)

/-- The counts n1 and n2 and strides that the dimension uses: those not used are taken as 1 and 0 (R279). -/
def State.copyStride (s : State) (o : Ops) (i level : Nat) : DWord := if level < copyDims o then s.groupReg o i else 0

/-- n1 as the dimension uses it. -/
def State.copyN1 (s : State) (o : Ops) : Nat := if 2 ≤ copyDims o then bitsOf (s.groupReg o 2) 32 32 else 1

/-- n2 as the dimension uses it. -/
def State.copyN2 (s : State) (o : Ops) : Nat := if 3 ≤ copyDims o then bitsOf (s.groupReg o 3) 0 32 else 1

/-- The operands of CPY, read at issue (R279). -/
def State.cpyCommand (s : State) (o : Ops) : CopyCmd :=
  .copy (s.groupReg o 0) (s.groupReg o 1) (bitsOf (s.groupReg o 2) 0 32) (s.copyN1 o) (s.copyN2 o)
    (s.copyStride o 4 1) (s.copyStride o 5 1) (s.copyStride o 6 2) (s.copyStride o 7 2)

/-- The operands of CPYF (R280). -/
def State.cpyfCommand (s : State) (o : Ops) : CopyCmd :=
  .fill (s.groupReg o 0) (s.groupReg o 1) o.ty.size (bitsOf (s.groupReg o 2) 0 32) (s.copyN1 o) (s.copyN2 o)
    (s.copyStride o 4 1) (s.copyStride o 6 2)

/-- The operands of CPYG (R281). -/
def State.cpygCommand (s : State) (o : Ops) : CopyCmd :=
  .gather (s.groupReg o 0) (s.groupReg o 1) (bitsOf (s.groupReg o 2) 32 32) (bitsOf (s.groupReg o 2) 0 32) (s.groupReg o 3) o.ty
    (s.groupReg o 4) (s.groupReg o 5) (s.groupReg o 6).toNat

/-- R282 step 2: a count of 0, more than 2^36 bytes of payload, or a source bound out of range. -/
def CopyCmd.countsRefused (c : CopyCmd) : Bool :=
  c.bytes = 0 || 2 ^ 36 < c.bytes ||
    (match c with
     | .gather _ _ _ _ _ _ _ _ bound => bound = 0 || 2 ^ 40 < bound
     | _ => false)

/-- R282 step 5: the address that the alignment of R280 or R281 refuses. -/
def CopyCmd.misaligned (c : CopyCmd) : Option Nat :=
  match c with
  | .copy _ _ _ _ _ _ _ _ _ => none
  | .fill d _ z n0 _ _ ds1 ds2 =>
    if d.toNat % z ≠ 0 || ds1.toNat % z ≠ 0 || ds2.toNat % z ≠ 0 || n0 % z ≠ 0 then some d.toNat else none
  | .gather _ _ _ _ list ty _ _ _ => if list.toNat % ty.size ≠ 0 then some list.toNat else none

/-- The checks of R282 on a copy command in their order. -/
def State.copyCheck (s : State) (c : CopyCmd) (spec : DWord) (w b : Bool) : Option Stop :=
  if (w || b) && specMalformed spec then some (.trap .illegalInstruction 0 0 false)
  else if c.countsRefused then some (.trap .illegalRegister 0 0 false)
  else if b && (let x := s.barrier s.team.gang (bitsOf spec 24 4); !x.init || x.gang ≠ s.team.gang) then
    some (.trap .illegalRegister 0 0 false)
  else
    match (if w then s.wordCheck (bitsOf spec 0 21) else none), c.misaligned with
    | some e, _ => some e
    | none, some a => some (stopEnd .misalignment a 0)
    | none, none => spansCheck c.spans

/-- A copy command issued (R109, R277, R282). -/
def State.copyIssue (s : State) (i : Instr) (o : Ops) (bad : Bool) (c : CopyCmd) : Out :=
  let w := o.var.getLsbD 3
  let b := o.var.getLsbD 2
  if s.targetOf o ≠ some .copy then s.trapEnd .illegalRegister
  else if bad then s.trapWord .illegalInstruction i
  else
    match s.copyCheck c (s.regs.source o.b) w b with
    | some e => .next (s.stopAt e)
    | none => s.pushCommand i (.copy c) (c.spans.map Span.region) (completionOf (s.regs.source o.b) w b)

/-- CPY. -/
def execCpy (o : Ops) (s : State) : Out := s.copyIssue (.cpy o) o (o.var.toNat % 4 = 3) (s.cpyCommand o)

/-- CPYF. -/
def execCpyf (o : Ops) (s : State) : Out := s.copyIssue (.cpyf o) o (o.var.toNat % 4 = 3) (s.cpyfCommand o)

/-- CPYG. -/
def execCpyg (o : Ops) (s : State) : Out := s.copyIssue (.cpyg o) o (o.var.toNat % 4 ≠ 0) (s.cpygCommand o)

/-! ### The copy engine (R276, R279 to R283) -/

/-- The bytes of a run from payload offset `at_` of its row on: up to the end of the row or of the 128-byte line of the destination. -/
def runLength (dst : DWord) (n0 at_ : Nat) : Nat := min (n0 - at_) (128 - (dst.toNat + at_) % 128)

/-- The source of a gathered row, or its refusal when it lies outside the bound (R281). -/
def gatherRow (src scale : DWord) (n0 bound : Nat) (x : Int) : Except DWord DWord :=
  let a : Int := src.toNat + x * scale.toInt
  if a < src.toNat || (src.toNat : Int) + bound < a + n0 then .error (BitVec.ofInt 64 a) else .ok (BitVec.ofInt 64 a)

/-- The destination of row `row` of a copy command: row i2·n1 + i1. -/
def CopyCmd.rowDest (c : CopyCmd) (row : Nat) : DWord :=
  match c with
  | .copy d _ _ n1 _ ds1 _ ds2 _ => d + BitVec.ofNat 64 (row / n1) * ds2 + BitVec.ofNat 64 (row % n1) * ds1
  | .fill d _ _ _ n1 _ ds1 ds2 => d + BitVec.ofNat 64 (row / n1) * ds2 + BitVec.ofNat 64 (row % n1) * ds1
  | .gather d _ _ _ _ _ stride _ _ => d + BitVec.ofNat 64 row * stride

/-- The source of the gathered row that a command copies: its index is read once, with the row's first run (R281). -/
def State.rowSource (s : State) (core : Nat) (x : Cmd) (c : CopyCmd) (row : Nat) : Res (State × Option DWord) :=
  match c, x.rowSrc with
  | .gather _ src _ n0 list ty _ scale bound, none =>
    match s.engineRead core x.gang x.ctx (list.toNat + row * ty.size) ty.size 0x21 with
    | .error e => .error e
    | .ok (s1, bs) =>
      match gatherRow src scale n0 bound (intOf ty.isSigned (8 * ty.size) (leNat bs)) with
      | .error a => .error (.trap .windowKind a 0x21 false, s1)
      | .ok a => .ok (s1, some a)
  | _, r => .ok (s, r)

/-- The bytes of one run of a command, read: `row` and `at_` say which, `n` how many, and `from_` is the source of a gathered row (R279 to
R281). -/
def State.runSource (s : State) (core : Nat) (x : Cmd) (c : CopyCmd) (from_ : Option DWord) (row at_ n : Nat) : Res (State × List (Byte × Bool)) :=
  match c with
  | .copy _ src _ n1 _ _ ss1 _ ss2 =>
    s.engineReadMarked core x.gang x.ctx
      ((src + BitVec.ofNat 64 (row / n1) * ss2 + BitVec.ofNat 64 (row % n1) * ss1).toNat + at_) n 0x21
  | .fill _ pattern z _ _ _ _ _ =>
    .ok (s, (List.range n).map (fun j => ((pattern.extractLsb' (8 * ((at_ + j) % z)) 8 : Byte), false)))
  | .gather _ _ _ _ _ _ _ _ _ => s.engineReadMarked core x.gang x.ctx ((from_.getD 0).toNat + at_) n 0x21

/-- One run of a started command performed; `progress` counts payload bytes. -/
def State.copyRun (s : State) (core : Nat) (x : Cmd) (c : CopyCmd) : State :=
  let row := x.progress / c.runBytes
  let at_ := x.progress % c.runBytes
  let dst := c.rowDest row
  let n := runLength dst c.runBytes at_
  match s.rowSource core x c row with
  | .error (e, s1) => s1.commandStop core x e
  | .ok (s1, src) =>
    match (s1.mapCore core (fun k => k.mapCommand x.id (fun y => { y with rowSrc := src }))).runSource core x c src row at_ n with
    | .error (e, s2) => s2.commandStop core x e
    | .ok (s2, bs) =>
      match s2.engineWriteMarked (some core) x.gang x.ctx (.command core x.id) (dst.toNat + at_) bs 0x22 with
      | .error (e, s3) => s3.commandStop core x e
      | .ok s3 =>
        ((s3.audited x.gang (dst.toNat + at_) (bs.map (fun b => b.1))).mapCore core (fun k => k.mapCommand x.id (fun y =>
          { y with progress := y.progress + n, rowSrc := if at_ + n = c.runBytes then none else src }))).count x.gang 10 n

/-- Up to `fuel` runs of a started command, until it stops or is whole. -/
def State.copyRuns (s : State) (core id fuel : Nat) : State :=
  match fuel with
  | 0 => s
  | f + 1 =>
    match (s.coreAt core).command id with
    | some x =>
      match x.kind with
      | .copy c =>
        if x.stopped || c.bytes ≤ x.progress then s
        else (s.copyRun core x c).copyRuns core id f
      | _ => s
    | none => s

/-- The copy commands of a core that have started (R276). -/
def Core.copying (c : Core) : Nat := (c.cmds.filter (fun x => x.started && (match x.kind with | .copy _ => true | _ => false))).length

/-- COPY_COMMAND_START: a command whose edges have completed starts, while fewer than four run, and performs up to `runs` of its runs; a
command that has started performs more. -/
def execCopyCommandStart (core command runs : Nat) (s : State) : Out :=
  let c := s.coreAt core
  match c.command command with
  | some x =>
    match x.kind with
    | .copy _ =>
      if x.started then .next (s.copyRuns core command runs)
      else if s.unblocked x && decide (c.copying < 4) then
        .next ((s.mapCore core (fun k => k.mapCommand command (fun y => { y with started := true }))).copyRuns core command runs)
      else .next s
    | _ => .next s
  | none => .next s

/-- COPY_COMMAND_COMPLETE: every byte of the payload is performed, those on their way to an apply slot included; the completion word and credit
are written (R210, R213, R276). -/
def execCopyCommandComplete (core command : Nat) (s : State) : Out :=
  match (s.coreAt core).command command with
  | some x =>
    match x.kind with
    | .copy c => if x.started && decide (c.bytes ≤ x.progress) && !s.writesOf (.command core command) then .next (s.completeCommand core x c.bytes) else .next s
    | _ => .next s
  | none => .next s

end Sys2Proof.Machine
end

