-- ==== Sys2Proof/Machine/Scalar.lean ====
section
/-! DEFINITION. The scalar instructions of class 0, in F and in L form (R117 to R123). -/
namespace Sys2Proof.Machine

/-! ### What the operations compute (R119 to R122) -/

/-- The high 64 bits of the exact product (R119). -/
def mulHigh (signed : Bool) (x y : DWord) : DWord :=
  BitVec.ofInt 64 (intOf signed 64 x.toNat * intOf signed 64 y.toNat / 2 ^ 64)

/-- The quotient of R120. -/
def divide (signed : Bool) (x y : DWord) : DWord :=
  if y = 0 then 0xFFFFFFFFFFFFFFFF
  else BitVec.ofInt 64 (Int.tdiv (intOf signed 64 x.toNat) (intOf signed 64 y.toNat))

/-- The remainder of R120. -/
def remainder (signed : Bool) (x y : DWord) : DWord :=
  if y = 0 then x
  else BitVec.ofInt 64 (Int.tmod (intOf signed 64 x.toNat) (intOf signed 64 y.toNat))

/-- Whether x is less than y, compared as the type says (R119). -/
def lessThan (signed : Bool) (x y : DWord) : Bool := decide (intOf signed 64 x.toNat < intOf signed 64 y.toNat)

/-- The lesser of two values (R119). -/
def scalarMin (signed : Bool) (x y : DWord) : DWord := if lessThan signed y x then y else x

/-- The greater of two values (R119). -/
def scalarMax (signed : Bool) (x y : DWord) : DWord := if lessThan signed x y then y else x

/-- 1 for true, 0 for false. -/
def bit01 (b : Bool) : DWord := if b then 1 else 0

/-! ### Their shape -/

/-- A scalar operation in F form: d ← f a b, every source read before the write (R117). -/
def State.scalarOp (s : State) (o : Ops) (f : DWord → DWord → DWord) : Out :=
  (s.setS o.d.num.toNat (f (s.regs.source o.a) (s.regs.source o.b))).retire

/-- A scalar operation in L form: d ← f a sext(imm) (R118). -/
def State.scalarLong (s : State) (o : LOps) (f : DWord → DWord → DWord) : Out :=
  (s.setS o.d.toNat (f (s.sreg o.a.toNat) (o.imm.signExtend 64))).retire

/-! ### The instructions -/

/-- SADD (R119). -/
def execSadd (o : Ops) (s : State) : Out := s.scalarOp o (fun x y => x + y)

/-- SADD in L form (R118). -/
def execSaddL (o : LOps) (s : State) : Out := s.scalarLong o (fun x y => x + y)

/-- SSUB (R119). -/
def execSsub (o : Ops) (s : State) : Out := s.scalarOp o (fun x y => x - y)

/-- SMUL (R119). -/
def execSmul (o : Ops) (s : State) : Out := s.scalarOp o (fun x y => x * y)

/-- SMUL in L form (R118). -/
def execSmulL (o : LOps) (s : State) : Out := s.scalarLong o (fun x y => x * y)

/-- SMULH (R119). -/
def execSmulh (o : Ops) (s : State) : Out := s.scalarOp o (mulHigh o.ty.isSigned)

/-- SDIV (R120). -/
def execSdiv (o : Ops) (s : State) : Out := s.scalarOp o (divide o.ty.isSigned)

/-- SREM (R120). -/
def execSrem (o : Ops) (s : State) : Out := s.scalarOp o (remainder o.ty.isSigned)

/-- SAND (R119). -/
def execSand (o : Ops) (s : State) : Out := s.scalarOp o (fun x y => x &&& y)

/-- SAND in L form (R118). -/
def execSandL (o : LOps) (s : State) : Out := s.scalarLong o (fun x y => x &&& y)

/-- SOR (R119). -/
def execSor (o : Ops) (s : State) : Out := s.scalarOp o (fun x y => x ||| y)

/-- SOR in L form (R118). -/
def execSorL (o : LOps) (s : State) : Out := s.scalarLong o (fun x y => x ||| y)

/-- SXOR (R119). -/
def execSxor (o : Ops) (s : State) : Out := s.scalarOp o (fun x y => x ^^^ y)

/-- SXOR in L form (R118). -/
def execSxorL (o : LOps) (s : State) : Out := s.scalarLong o (fun x y => x ^^^ y)

/-- SSHL (R119). -/
def execSshl (o : Ops) (s : State) : Out := s.scalarOp o (fun x y => x <<< (y.toNat % 64))

/-- SSHR (R119). -/
def execSshr (o : Ops) (s : State) : Out := s.scalarOp o (fun x y => x >>> (y.toNat % 64))

/-- SSAR (R119). -/
def execSsar (o : Ops) (s : State) : Out := s.scalarOp o (fun x y => x.sshiftRight (y.toNat % 64))

/-- SMIN (R119). -/
def execSmin (o : Ops) (s : State) : Out := s.scalarOp o (scalarMin o.ty.isSigned)

/-- SMAX (R119). -/
def execSmax (o : Ops) (s : State) : Out := s.scalarOp o (scalarMax o.ty.isSigned)

/-- SCMP (R121). -/
def execScmp (o : Ops) (s : State) : Out :=
  s.scalarOp o (fun x y =>
    bit01 (relation o.var.toNat (intOf o.ty.isSigned 64 x.toNat) (intOf o.ty.isSigned 64 y.toNat)))

/-- SLEA (R122). -/
def execSlea (o : Ops) (s : State) : Out := s.scalarOp o (fun x y => x + (y <<< o.var.toNat))

/-- SMOVI (R123). -/
def execSmovi (o : LOps) (s : State) : Out := s.scalarLong o (fun _ y => y)

/-- SMOVHI (R123): it reads d as a source. -/
def execSmovhi (o : LOps) (s : State) : Out :=
  (s.setS o.d.toNat ((o.imm.setWidth 64 <<< 32) ||| ((s.sreg o.d.toNat).setWidth 32).setWidth 64)).retire

end Sys2Proof.Machine
end

