-- ==== Sys2Proof/Machine/Dual.lean ====
section
/-! DEFINITION. D words: two short operations that read before either writes (R63 to R66). A D word is one instruction; its arm is that
of the operation in slot 0. -/
namespace Sys2Proof.Machine

/-- The element type that dt names for a group of short operations (R66). -/
def shortType (s : Sop) (dt : BitVec 2) : ElemType :=
  if s.isScalar then (if dt = 0 then .s64 else .n64)
  else if s.isFloat then (if dt = 2 then .f32 else .f16)
  else (if dt = 0 then .s32 else .n32)

/-- The fields of the full instruction that a slot has the effect of: d is destination and first source (R64). -/
def fullOf (s : Sop) (x : Slot) : Ops where
  d := .reg x.d
  a := .reg x.d
  b := match x.b with | .reg n => .reg n | .scalar n => .scalar n | .imm n => .imm n
  var := 0
  ty := shortType s x.dt
  mode := 0
  mask := x.mask
  la := 0

/-- The effect of a vector or floating-point slot: its write and its flags. -/
def vectorShort (tw op : Nat) (s : Sop) (x : Slot) (r : TeamRegs) : List RegWrite × Flags :=
  let v := vecOp op (vecIn tw op (fullOf s x) r [] [])
  ([vecWrite x.d.toNat v.1], v.2)

/-- The effect of a scalar slot. -/
def scalarShort (s : Sop) (x : Slot) (r : TeamRegs) (f : DWord → DWord → DWord) : List RegWrite × Flags :=
  let o := fullOf s x
  ([.scal x.d.toNat (f (r.source o.a) (r.source o.b))], 0)

/-- The effect of a short operation (R66). -/
def shortEffect (tw : Nat) (s : Sop) (x : Slot) (r : TeamRegs) : List RegWrite × Flags :=
  let signed := (shortType s x.dt).isSigned
  match s with
  | .vadd => vectorShort tw 0x0C0 s x r
  | .vsub => vectorShort tw 0x0C1 s x r
  | .vmul => vectorShort tw 0x0C2 s x r
  | .vmin => vectorShort tw 0x0CD s x r
  | .vmax => vectorShort tw 0x0CE s x r
  | .vadds => vectorShort tw 0x0C5 s x r
  | .vsubs => vectorShort tw 0x0C6 s x r
  | .vand => vectorShort tw 0x0C7 s x r
  | .vor => vectorShort tw 0x0C8 s x r
  | .vxor => vectorShort tw 0x0C9 s x r
  | .vshl => vectorShort tw 0x0CA s x r
  | .vshr => vectorShort tw 0x0CB s x r
  | .vsar => vectorShort tw 0x0CC s x r
  | .vmov => vectorShort tw 0x0D1 s x r
  | .fadd => vectorShort tw 0x100 s x r
  | .fsub => vectorShort tw 0x101 s x r
  | .fmul => vectorShort tw 0x102 s x r
  | .fmin => vectorShort tw 0x104 s x r
  | .fmax => vectorShort tw 0x105 s x r
  | .sadd => scalarShort s x r (fun a b => a + b)
  | .ssub => scalarShort s x r (fun a b => a - b)
  | .sand => scalarShort s x r (fun a b => a &&& b)
  | .sor => scalarShort s x r (fun a b => a ||| b)
  | .sxor => scalarShort s x r (fun a b => a ^^^ b)
  | .sshl => scalarShort s x r (fun a b => a <<< (b.toNat % 64))
  | .sshr => scalarShort s x r (fun a b => a >>> (b.toNat % 64))
  | .ssar => scalarShort s x r (fun a b => a.sshiftRight (b.toNat % 64))
  | .smin => scalarShort s x r (scalarMin signed)
  | .smax => scalarShort s x r (scalarMax signed)

/-- The effect of slot 1. -/
def partnerEffect (tw : Nat) (p : Short) (r : TeamRegs) : List RegWrite × Flags :=
  match p with
  | .nop => ([], 0)
  | .op s x => shortEffect tw s x r

/-- The outcome of a D word: both slots read, then both write, and their flags are raised together (R64). -/
def State.dual (s : State) (e : List RegWrite × Flags) (p : List RegWrite × Flags) : Out :=
  (s.writeResult s.cur (e.1 ++ p.1) (e.2 ||| p.2)).retire

/-- A NOP slot beside slot 1. -/
def execNopSlot (p : Short) (s : State) : Out := s.dual ([], 0) (partnerEffect s.tw p s.regs)

/-- VADD in slot 0. -/
def execVaddSlot (x : Slot) (p : Short) (s : State) : Out := s.dual (shortEffect s.tw .vadd x s.regs) (partnerEffect s.tw p s.regs)

/-- VSUB in slot 0. -/
def execVsubSlot (x : Slot) (p : Short) (s : State) : Out := s.dual (shortEffect s.tw .vsub x s.regs) (partnerEffect s.tw p s.regs)

/-- VMUL in slot 0. -/
def execVmulSlot (x : Slot) (p : Short) (s : State) : Out := s.dual (shortEffect s.tw .vmul x s.regs) (partnerEffect s.tw p s.regs)

/-- VMIN in slot 0. -/
def execVminSlot (x : Slot) (p : Short) (s : State) : Out := s.dual (shortEffect s.tw .vmin x s.regs) (partnerEffect s.tw p s.regs)

/-- VMAX in slot 0. -/
def execVmaxSlot (x : Slot) (p : Short) (s : State) : Out := s.dual (shortEffect s.tw .vmax x s.regs) (partnerEffect s.tw p s.regs)

/-- VADDS in slot 0. -/
def execVaddsSlot (x : Slot) (p : Short) (s : State) : Out := s.dual (shortEffect s.tw .vadds x s.regs) (partnerEffect s.tw p s.regs)

/-- VSUBS in slot 0. -/
def execVsubsSlot (x : Slot) (p : Short) (s : State) : Out := s.dual (shortEffect s.tw .vsubs x s.regs) (partnerEffect s.tw p s.regs)

/-- VAND in slot 0. -/
def execVandSlot (x : Slot) (p : Short) (s : State) : Out := s.dual (shortEffect s.tw .vand x s.regs) (partnerEffect s.tw p s.regs)

/-- VOR in slot 0. -/
def execVorSlot (x : Slot) (p : Short) (s : State) : Out := s.dual (shortEffect s.tw .vor x s.regs) (partnerEffect s.tw p s.regs)

/-- VXOR in slot 0. -/
def execVxorSlot (x : Slot) (p : Short) (s : State) : Out := s.dual (shortEffect s.tw .vxor x s.regs) (partnerEffect s.tw p s.regs)

/-- VSHL in slot 0. -/
def execVshlSlot (x : Slot) (p : Short) (s : State) : Out := s.dual (shortEffect s.tw .vshl x s.regs) (partnerEffect s.tw p s.regs)

/-- VSHR in slot 0. -/
def execVshrSlot (x : Slot) (p : Short) (s : State) : Out := s.dual (shortEffect s.tw .vshr x s.regs) (partnerEffect s.tw p s.regs)

/-- VSAR in slot 0. -/
def execVsarSlot (x : Slot) (p : Short) (s : State) : Out := s.dual (shortEffect s.tw .vsar x s.regs) (partnerEffect s.tw p s.regs)

/-- VMOV in slot 0. -/
def execVmovSlot (x : Slot) (p : Short) (s : State) : Out := s.dual (shortEffect s.tw .vmov x s.regs) (partnerEffect s.tw p s.regs)

/-- FADD in slot 0. -/
def execFaddSlot (x : Slot) (p : Short) (s : State) : Out := s.dual (shortEffect s.tw .fadd x s.regs) (partnerEffect s.tw p s.regs)

/-- FSUB in slot 0. -/
def execFsubSlot (x : Slot) (p : Short) (s : State) : Out := s.dual (shortEffect s.tw .fsub x s.regs) (partnerEffect s.tw p s.regs)

/-- FMUL in slot 0. -/
def execFmulSlot (x : Slot) (p : Short) (s : State) : Out := s.dual (shortEffect s.tw .fmul x s.regs) (partnerEffect s.tw p s.regs)

/-- FMIN in slot 0. -/
def execFminSlot (x : Slot) (p : Short) (s : State) : Out := s.dual (shortEffect s.tw .fmin x s.regs) (partnerEffect s.tw p s.regs)

/-- FMAX in slot 0. -/
def execFmaxSlot (x : Slot) (p : Short) (s : State) : Out := s.dual (shortEffect s.tw .fmax x s.regs) (partnerEffect s.tw p s.regs)

/-- SADD in slot 0. -/
def execSaddSlot (x : Slot) (p : Short) (s : State) : Out := s.dual (shortEffect s.tw .sadd x s.regs) (partnerEffect s.tw p s.regs)

/-- SSUB in slot 0. -/
def execSsubSlot (x : Slot) (p : Short) (s : State) : Out := s.dual (shortEffect s.tw .ssub x s.regs) (partnerEffect s.tw p s.regs)

/-- SAND in slot 0. -/
def execSandSlot (x : Slot) (p : Short) (s : State) : Out := s.dual (shortEffect s.tw .sand x s.regs) (partnerEffect s.tw p s.regs)

/-- SOR in slot 0. -/
def execSorSlot (x : Slot) (p : Short) (s : State) : Out := s.dual (shortEffect s.tw .sor x s.regs) (partnerEffect s.tw p s.regs)

/-- SXOR in slot 0. -/
def execSxorSlot (x : Slot) (p : Short) (s : State) : Out := s.dual (shortEffect s.tw .sxor x s.regs) (partnerEffect s.tw p s.regs)

/-- SSHL in slot 0. -/
def execSshlSlot (x : Slot) (p : Short) (s : State) : Out := s.dual (shortEffect s.tw .sshl x s.regs) (partnerEffect s.tw p s.regs)

/-- SSHR in slot 0. -/
def execSshrSlot (x : Slot) (p : Short) (s : State) : Out := s.dual (shortEffect s.tw .sshr x s.regs) (partnerEffect s.tw p s.regs)

/-- SSAR in slot 0. -/
def execSsarSlot (x : Slot) (p : Short) (s : State) : Out := s.dual (shortEffect s.tw .ssar x s.regs) (partnerEffect s.tw p s.regs)

/-- SMIN in slot 0. -/
def execSminSlot (x : Slot) (p : Short) (s : State) : Out := s.dual (shortEffect s.tw .smin x s.regs) (partnerEffect s.tw p s.regs)

/-- SMAX in slot 0. -/
def execSmaxSlot (x : Slot) (p : Short) (s : State) : Out := s.dual (shortEffect s.tw .smax x s.regs) (partnerEffect s.tw p s.regs)

end Sys2Proof.Machine
end

