-- ==== Sys2Proof/Machine/Network.lean ====
section
/-! DEFINITION. The network instructions and the network engine's steps, on the sending and on the receiving side (R285 to R295). -/
namespace Sys2Proof.Machine

/-! ### Completion (R287) -/

/-- A network command completed with a status (R287): its completion word, or without one a record for a status that is not 0. -/
def State.netComplete (s : State) (c : NetCmd) (status : Option Cause) : State :=
  match c.word, status with
  | some (off, v), st =>
    let code : Word32 := match st with | some x => x.code.setWidth 32 | none => 0
    s.storeGang c.gang off (leBytes 4 ((code <<< 24) ||| (v &&& 0xFFFFFF)).toNat)
  | none, some x => (s.addRecord (s.teamRecord c.team x 0 0 c.pc) false).1
  | none, none => s

/-! ### Issue (R286) -/

/-- The connection that a group names. -/
def netConn (x : DWord) : Nat := bitsOf x 16 16

/-- The operands of a network command, read at issue (R286). -/
def State.netCommand (s : State) (o : Ops) (kind : NetKind) : NetCmd :=
  let r (i : Nat) : DWord := s.sreg (o.a.num.toNat + i)
  let spec := s.regs.source o.b
  { team := s.cur
    gang := s.team.gang
    ctx := s.ctxOf s.cur
    pc := s.regs.pc
    kind := kind
    va := r 0
    offset := r 1
    len := bitsOf (r 2) 32 32
    conn := netConn (r 2)
    buffer := bitsOf (r 2) 8 8
    counter := bitsOf (r 3) 52 12
    threshold := bitsOf (r 3) 0 52
    word := if o.var.getLsbD 3 then some (bitsOf spec 0 21, BitVec.ofNat 32 (bitsOf spec 32 32)) else none }

/-- The checks of R286 that raise 0x03. -/
def State.netRefused (s : State) (c : NetCmd) (low : Nat) : Bool :=
  let x := s.ctxAt c.ctx
  let counter := match c.kind with | .npost => true | .nsendt => true | _ => false
  let whole := match c.kind with | .nunpost => false | _ => true
  !(x.cbase ≤ c.conn && decide (c.conn < x.cbase + x.ccnt))
    || (counter && !(x.nbase ≤ c.counter && decide (c.counter < x.nbase + x.ncnt)))
    || (whole && (c.len = 0 || low ≠ 0))

/-- The address check of R286, R282 step 6, on the local buffer or source. -/
def netAddress (c : NetCmd) : Option Stop :=
  match c.kind with
  | .nunpost => none
  | .npost => spanCheck ⟨c.va.toNat, c.va.toNat + c.len - 1, true⟩
  | _ => spanCheck ⟨c.va.toNat, c.va.toNat + c.len - 1, false⟩

/-- The checks of R286 in their order. -/
def State.netCheck (s : State) (o : Ops) (c : NetCmd) : Option Stop :=
  let spec := s.regs.source o.b
  if o.var.getLsbD 3 && (specMalformed spec || bitsOf spec 24 4 ≠ 0) then some (.trap .illegalInstruction 0 0 false)
  else if s.netRefused c (bitsOf (s.sreg (o.a.num.toNat + 2)) 0 8) then some (.trap .illegalRegister 0 0 false)
  else
    match c.word with
    | some w => (match s.wordCheck w.1 with | some e => some e | none => netAddress c)
    | none => netAddress c

/-- A network command issued (R109, R260, R286, R372). -/
def State.netIssue (s : State) (i : Instr) (o : Ops) (kind : NetKind) : Out :=
  let c := s.netCommand o kind
  if s.targetOf o ≠ some .network then s.trapEnd .illegalRegister
  else if o.var.toNat % 8 ≠ 0 then s.trapWord .illegalInstruction i
  else
    match s.netCheck o c with
    | some e => .next (s.stopAt e)
    | none =>
      if 32 ≤ (s.coreAt s.gang.core).netq.length then .next s.stallQueue
      else ((s.mapCore s.gang.core (fun k => { k with netq := k.netq ++ [c] })).sealInterval s.team.gang).retire

/-- NPOST. -/
def execNpost (o : Ops) (s : State) : Out := s.netIssue (.npost o) o .npost

/-- NUNPOST. -/
def execNunpost (o : Ops) (s : State) : Out := s.netIssue (.nunpost o) o .nunpost

/-- NSEND. -/
def execNsend (o : Ops) (s : State) : Out := s.netIssue (.nsend o) o .nsend

/-- NSENDT. -/
def execNsendt (o : Ops) (s : State) : Out := s.netIssue (.nsendt o) o .nsendt

/-! ### Sending (R290 to R292) -/

/-- The packets of a send: at most 4,096 bytes, none crossing a 4 KiB boundary of the remote offset. Each is an offset in the send and a
length (R290). -/
def packetsOf (offset len : Nat) : List (Nat × Nat) :=
  (List.range (len / 4096 + 2)).filterMap (fun i =>
    let lo := max offset (offset / 4096 * 4096 + 4096 * i)
    let hi := min (offset + len) (offset / 4096 * 4096 + 4096 * i + 4096)
    if lo < hi then some (lo - offset, hi - lo) else none)

/-- The core whose gang issued a network command. -/
def State.netCore (s : State) (c : NetCmd) : Nat := (s.gangAt c.gang).core

/-- A network command's fault charged to its team (R291, R359). -/
def State.netCharge (s : State) (c : NetCmd) (cause : Cause) (value : DWord) (holds : Option Held) : State :=
  (s.mapHub (fun h => { h with nextCmd := h.nextCmd + 1 })).charge ⟨s.hub.nextCmd, c.team, c.gang, c.ctx, c.pc, 0, .matrix .accz, [], [], true, false, 0, none, ⟨none, none⟩⟩ cause value 0x21 holds

/-- Whether a fault holds a send's source read: it has a fault id, or its team is still to take it. -/
def State.faultHolds (s : State) (conn id : Nat) : Bool :=
  s.hub.held.any (fun x => x.holds.contains (.send conn id)) || s.teams.any (fun p => p.2.async.any (fun a => a.holds = some (.send conn id)))

/-- The source bytes of a send read and its packets sent, or the send held by a fault or until the host answers, or discarded (R291, R359). -/
def State.readSend (s : State) (conn : Nat) (x : Send) : State :=
  let c := x.cmd
  let others (s : State) (f : List Send → List Send) : State := s.mapConn conn (fun k => { k with sends := f k.sends })
  match s.engineRead (s.netCore c) c.gang c.ctx c.va.toNat c.len 0x21 with
  | .ok (s1, bs) =>
    let ps := packetsOf c.offset.toNat c.len
    let out := (List.range ps.length).map (fun i =>
      let p := ps.getD i (0, 0)
      (⟨conn, x.first + i, c.buffer, c.offset.toNat + p.1, (bs.drop p.1).take p.2⟩ : SentPacket))
    (others s1 (fun l => l.map (fun y => if y.id = x.id then { y with held := false } else y))).mapNet
      (fun n => { n with sent := n.sent ++ out })
  | .error (.trap cause va _ true, s1) =>
    (others s1 (fun l => l.map (fun y => if y.id = x.id then { y with held := true } else y))).netCharge c cause va (some (.send conn x.id))
  | .error (.trap cause va _ false, s1) => (others s1 (fun l => l.filter (fun y => y.id ≠ x.id))).netCharge c cause va none
  | .error (.poison va, s1) => (others s1 (fun l => l.filter (fun y => y.id ≠ x.id))).netCharge c .errorConsumed va none
  | .error (.wait r, s1) => s1.request r
  | .error (.host _, s1) => s1

/-- The sends of a connection that wait for the host read again (R291). -/
def State.retrySends (s : State) (conn : Nat) : State :=
  ((s.connAt conn).sends.filter (fun x => x.held)).foldl (fun (s : State) x => if s.faultHolds conn x.id then s else s.readSend conn x) s

/-- The island of the network port that serves a connection woken by a send or a packet that arrives for it (R16; log 51). -/
def State.wakePort (s : State) (conn : Nat) : State := s.wakeIsland (480 + conn % 12)

/-- A send numbered on its connection and its source read (R290, R291). -/
def State.startSend (s0 : State) (c : NetCmd) : State :=
  let s := s0.wakePort c.conn
  let k := s.connAt c.conn
  if k.failed then s.netComplete c (some .linkFailure)
  else
    let n := (packetsOf c.offset.toNat c.len).length
    let x : Send := ⟨s.net.nextSend, c, k.sendSeq + 1, n, true⟩
    ((s.mapConn c.conn (fun k => { k with sendSeq := k.sendSeq + n, sends := k.sends ++ [x] })).mapNet
      (fun m => { m with nextSend := m.nextSend + 1 })).readSend c.conn x

/-! ### Receive counters (R292, R295, R352) -/

/-- The armed sends that a counter makes due fired in arming order, at most `fuel` of them (R292). -/
def State.fireArmed (s : State) (n fuel : Nat) : State :=
  match fuel with
  | 0 => s
  | f + 1 =>
    match s.net.armed.findIdx? (fun c => c.counter = n && c.threshold ≤ (s.counter n).toNat) with
    | none => s
    | some i =>
      match s.net.armed[i]? with
      | none => s
      | some c => ((s.mapNet (fun m => { m with armed := m.armed.eraseIdx i })).startSend c).fireArmed n f

/-- A receive counter changed: waits that it satisfies complete and armed sends that it makes due fire. -/
def State.setCounter (s : State) (n : Nat) (x : DWord) : State :=
  let s1 := (s.mapNet (fun k => { k with counters := k.counters.put 0 n x })).counterChanged n
  s1.fireArmed n s1.net.armed.length

/-- NCNT, and NCNT.sub (R295). -/
def execNcnt (o : Ops) (s : State) : Out :=
  match s.counterOf (s.regs.source o.a) with
  | none => s.trapEnd .illegalRegister
  | some n =>
    let old := s.counter n
    let s1 := if o.var.getLsbD 0 then s.setCounter n (old - s.regs.source o.b) else s
    s1.retireDeferred o.d.num.toNat old

/-! ### Buffers (R288, R289) -/

/-- Whether a buffer is under revocation. -/
def Conn.revoking (k : Conn) (b : Nat) : Bool := k.revocations.any (fun r => r.number = b)

/-- NPOST performed in the engine (R288, R289). -/
def State.doPost (s : State) (c : NetCmd) : State :=
  let k := s.connAt c.conn
  if k.failed then s.netComplete c (some .linkFailure)
  else if k.revoking c.buffer then s.mapConn c.conn (fun k => { k with waiting := k.waiting ++ [c] })
  else if (k.buffers.find c.buffer).isSome then s.netComplete c (some .illegalRegister)
  else (s.mapConn c.conn (fun k => { k with buffers := k.buffers.set c.buffer ⟨c.va, c.len, c.counter, c.ctx⟩ })).netComplete c none

/-- NUNPOST performed in the engine (R289). -/
def State.doUnpost (s : State) (c : NetCmd) : State :=
  let k := s.connAt c.conn
  if k.failed then s.netComplete c (some .linkFailure)
  else
    match k.buffers.find c.buffer with
    | none => s.netComplete c (some .illegalRegister)
    | some b => s.mapConn c.conn (fun k => { k with
        buffers := k.buffers.erase c.buffer
        revocations := k.revocations ++ [⟨c.buffer, b, k.highest, c⟩] })

/-- Whether every packet of a connection up to h that addresses a buffer is published or rejected; a packet that has not arrived may address
it (R289). -/
def Conn.revoked (k : Conn) (r : Revocation) : Bool :=
  (List.range (r.upTo - k.published)).all (fun i => (k.arrived.find (k.published + 1 + i)).any (fun p => p.number ≠ r.number || p.target.isNone))

/-- NUNPOST_COMPLETE: every packet of the connection up to h that addresses the buffer is published or rejected; the buffer's waiting NPOSTs are
then performed. -/
def execNunpostComplete (conn buffer : Nat) (s : State) : Out :=
  let k := s.connAt conn
  match k.revocations.find? (fun r => r.number = buffer) with
  | none => .next s
  | some r =>
    if k.revoked r then
      let posts := k.waiting.filter (fun c => c.buffer = buffer)
      let s1 := (s.mapConn conn (fun k => { k with
        revocations := k.revocations.filter (fun x => x.number ≠ buffer)
        waiting := k.waiting.filter (fun c => c.buffer ≠ buffer) })).netComplete r.cmd none
      .next (posts.foldl (fun (s : State) c => s.doPost c) s1)
    else .next s

/-- NETWORK_COMMAND_ACCEPT: the engine takes a core's oldest command; an NSENDT waits while 16,384 sends are armed (R292). -/
def execNetworkCommandAccept (core : Nat) (s : State) : Out :=
  match (s.coreAt core).netq with
  | [] => .next s
  | c :: rest =>
    let taken := s.mapCore core (fun k => { k with netq := rest })
    match c.kind with
    | .npost => .next (taken.doPost c)
    | .nunpost => .next (taken.doUnpost c)
    | .nsend => .next (taken.startSend c)
    | .nsendt =>
      if 16384 ≤ s.net.armed.length then .next s
      else if (s.connAt c.conn).failed then .next (taken.netComplete c (some .linkFailure))
      else if c.threshold ≤ (s.counter c.counter).toNat then .next (taken.startSend c)
      else .next (taken.mapNet (fun n => { n with armed := n.armed ++ [c] }))

/-! ### Receiving (R290, R293) -/

/-- The record of a refused or held placement (R273, R293). -/
def State.placementRecord (s : State) (b : Buffer) (off : Nat) (c : Cause) : FaultRecord :=
  ⟨s.fnOf b.ctx, 0, 0x22, 2, c, b.va + BitVec.ofNat 64 off, 0, 0, 0, 0, 0, 0⟩

/-- A packet placed in its buffer in the posting context (R293). A packet with a byte in the local window, of which a posting context is none of
the gangs, is refused with 0x12 (DESIGN CHOICE, log 104). -/
def State.placePacket (s : State) (conn : Nat) (b : Buffer) (p : Packet) : Res State :=
  let va := (b.va + BitVec.ofNat 64 p.offset).toNat
  if inWindow va || inWindow (va + p.bytes.length - 1) then .error (stopEnd .windowKind va 0x22, s)
  else s.engineWrite none 0 b.ctx (.packet conn) va p.bytes 0x22

/-- The answer to a packet given to the sender: published, or refused with a cause (R287, R289, R293). -/
def Conn.answer (k : Conn) (seq : Nat) (c : Option Cause) : Conn :=
  { k with acks := k.acks ++ [(seq, (c.map Cause.code).getD 0)] }

/-- The connection with the packet that is next in order passed. -/
def Conn.pass (k : Conn) : Conn := { k with published := k.published + 1, arrived := k.arrived.erase (k.published + 1), placed := false }

/-- A packet whose bytes are placed published, once those on their way to an apply slot are performed: the counter is raised and the sender
answered (R211, R290). -/
def State.publishPlaced (s : State) (conn : Nat) (b : Buffer) (n : Nat) : State :=
  (s.mapConn conn (fun k => (k.answer (k.published + 1) none).pass)).setCounter b.counter (s.counter b.counter + BitVec.ofNat 64 n)

/-- The packets of a connection published in sequence order, at most `fuel` of them: a refused one counts nothing, a fault holds the
connection (R290, R293). One whose placement stops otherwise, as at a poisoned page-table entry, is passed with no answer to its sender and no record
(DESIGN CHOICE, log 105). -/
def State.publish (s : State) (conn fuel : Nat) : State :=
  match fuel with
  | 0 => s
  | f + 1 =>
    let k := s.connAt conn
    let next := k.published + 1
    if k.held then s
    else
      match k.arrived.find next with
      | none => s
      | some p =>
        let refused (s : State) (c : Option Cause) : State :=
          s.mapConn conn (fun k => ((match c with | some x => k.answer next (some x) | none => k)).pass)
        match p.target with
        | none => (refused s none).publish conn f
        | some b =>
          if k.placed then
            if s.writesOf (.packet conn) then s else (s.publishPlaced conn b p.bytes.length).publish conn f
          else
            match s.placePacket conn b p with
            | .ok s1 =>
              if s1.writesOf (.packet conn) then s1.mapConn conn (fun k => { k with placed := true })
              else (s1.publishPlaced conn b p.bytes.length).publish conn f
            | .error (.trap c va _ true, _) =>
              ((s.mapConn conn (fun k => { k with held := true })).holdFault
                (s.placementRecord b p.offset c) (faultPage b.ctx c va) (.placement conn)).1
            | .error (.trap c _ _ false, _) => ((refused s (some c)).addRecord (s.placementRecord b p.offset c) false).1.publish conn f
            | .error (.wait r, _) => s.request r
            | .error (_, _) => (refused s none).publish conn f

/-- The packets of a connection published as far as the order allows. -/
def State.publishAll (s : State) (conn : Nat) : State := s.publish conn ((s.connAt conn).arrived.length + 1)

/-- A packet that reaches the receiver: recorded once, with its buffer, or refused with 0x12 or 0x50, and published as far as the order allows
(R289, R290, R293). -/
def State.receive (s0 : State) (conn seq buffer offset : Nat) (bytes : List Byte) : State :=
  let s := s0.wakePort conn
  let k := s.connAt conn
  if !k.isOpen || k.failed || seq ≤ k.published || bytes.isEmpty || 4096 < bytes.length then s
  else if (k.arrived.find seq).isSome then s.publishAll conn
  else
    let registered : Option Buffer := match k.revocations.find? (fun r => r.number = buffer && seq ≤ r.upTo) with
      | some r => some r.buffer
      | none => k.buffers.find buffer
    let target : Option Buffer := registered.filter (fun b => offset + bytes.length ≤ b.len)
    let s1 := match registered, target with
      | some b, none => (s.addRecord (s.placementRecord b offset .windowKind) false).1.mapConn conn (fun k => k.answer seq (some .windowKind))
      | none, _ => s.mapConn conn (fun k => k.answer seq (some .bufferRevoked))
      | some _, some _ => s
    (s1.mapConn conn (fun k => { k with
      highest := max k.highest seq
      arrived := k.arrived.set seq ⟨buffer, offset, bytes, target⟩ })).publishAll conn

/-- PACKET_ARRIVAL. -/
def execPacketArrival (conn seq buffer offset : Nat) (bytes : List Byte) (s : State) : Out :=
  .next (s.receive conn seq buffer offset bytes)

/-- PACKET_RETRANSMISSION: a packet placed twice is published once (R290). -/
def execPacketRetransmission (conn seq buffer offset : Nat) (bytes : List Byte) (s : State) : Out :=
  .next (s.receive conn seq buffer offset bytes)

/-- The causes that an acknowledgement may carry (R287). -/
def ackCause (status : Byte) : Option Cause :=
  if status = 0x10 then some .pageNotPresent
  else if status = 0x11 then some .writeProtection
  else if status = 0x12 then some .windowKind
  else if status = 0x13 then some .noOperator
  else if status = 0x50 then some .bufferRevoked
  else none

/-- SEND_ACKNOWLEDGEMENT: a send whose source is read completes with the status that the receiver gives; of one that waits for the host the source
is read first (R291). -/
def execSendAcknowledgement (conn send : Nat) (status : Byte) (s : State) : Out :=
  match (s.connAt conn).sends.find? (fun x => x.id = send && !x.held) with
  | none => .next (s.retrySends conn)
  | some x =>
    if status ≠ 0 && (ackCause status).isNone then .next s
    else .next ((s.mapConn conn (fun k => { k with sends := k.sends.filter (fun y => y.id ≠ send) })).netComplete x.cmd (ackCause status))

/-- A connection opened, or opened again after a failure, by system software: its packets are numbered afresh on both sides, and what its buffers
waited for of the old numbers is done (R285, R294; DESIGN CHOICE, log 72). -/
def Conn.reopened (k : Conn) : Conn :=
  { Conn.none with isOpen := true, buffers := k.buffers, revocations := k.revocations.map (fun r => { r with upTo := 0 }), waiting := k.waiting, acks := k.acks }

/-- The sends of a connection that have not completed completed with 0x51 (R294). -/
def State.failSends (s : State) (conn : Nat) : State :=
  (s.connAt conn).sends.foldl (fun (s : State) x => s.netComplete x.cmd (some .linkFailure)) (s.mapConn conn (fun k => { k with failed := true, sends := [] }))

/-- No fault holds a packet of a connection any longer. -/
def State.dropPlacement (s : State) (conn : Nat) : State := s.mapHub (fun h => h.release (fun x => x ≠ .placement conn))

/-- A connection closed by system software: its buffers are revoked, so that a revocation that waits is done, and its sends and the NPOSTs that wait
complete with 0x51, as every later command on it does (R382; DESIGN CHOICE, log 72). -/
def State.closeConn (s : State) (conn : Nat) : State :=
  let k := s.connAt conn
  let s1 := ((s.failSends conn).dropPlacement conn).mapConn conn (fun k => { Conn.none with failed := true, acks := k.acks })
  k.waiting.foldl (fun (s : State) c => s.netComplete c (some .linkFailure)) (k.revocations.foldl (fun (s : State) r => s.netComplete r.cmd none) s1)

/-- CONNECTION_FAILURE: every send that has not completed completes with 0x51; or system software opens or closes the connection (R285, R294,
R382). -/
def execConnectionFailure (change : ConnChange) (s : State) : Out :=
  let conn := change.conn
  let k := s.connAt conn
  match change.fate with
  | .opens => if k.isOpen && !k.failed then .next s else .next ((s.dropPlacement conn).mapConn conn Conn.reopened)
  | .closes => if k.isOpen then .next (s.closeConn conn) else .next s
  | .fails => if !k.isOpen || k.failed then .next s else .next (s.failSends conn)

end Sys2Proof.Machine
end

