-- ==== Sys2Proof/Machine/OperatorOps.lean ====
section
/-! DEFINITION. The instructions of class 14 and the steps of a slice's operator unit (R222 to R237, R333, R403). -/
namespace Sys2Proof.Machine

/-! ### OPINST (R232, R403) -/

/-- The shape word of OPINST: rows, columns, vector slots, stride (R232). -/
structure OpShape where
  m : Nat
  n : Nat
  s : Nat
  stride : Nat
  deriving DecidableEq, Repr

/-- The shape in a register. -/
def opShape (x : DWord) : OpShape := ⟨bitsOf x 0 12 + 1, bitsOf x 12 12 + 1, bitsOf x 24 6 + 1, bitsOf x 32 32⟩

/-- Whether an operator fits its slot's plots and windows (R223, R232, R238). -/
def OpSlot.fits (q : OpSlot) (ein eout : Nat) (x : OpShape) : Bool :=
  operatorBytes ein eout x.m x.n x.s ≤ (plotsOf q.plots).length * 1048576
    && x.s * up128 (x.n * ein) ≤ q.applyPages * 4096 && x.s * up128 (x.m * eout + 8) ≤ q.resultPages * 4096

/-- The source of an operator read whole: its rows one after the other, and whether a word of it is poisoned (R232, R237). -/
def State.readMatrix (s : State) (va : DWord) (ein : Nat) (x : OpShape) : Res (State × Memory × Bool) :=
  let u := s.cur
  let g := s.team.gang
  let ctx := s.ctxOf u
  let core := s.gang.core
  let row := x.n * ein
  (List.range x.m).foldl (fun (r : Res (State × Memory × Bool)) i =>
    match r with
    | .error e => .error e
    | .ok (s, m, bad) =>
      let a := va.toNat + i * x.stride
      if 2 ^ 57 < a + row then .error (stopEnd .pageNotPresent (max a (2 ^ 57)) 0x01, s)
      else
        match s.engineReadMarked core g ctx a row 0x01 with
        | .error e => .error e
        | .ok (s1, bs) => .ok (s1, m.write (i * row) (bs.map (fun b => b.1)), bad || bs.any (fun b => b.2))) (.ok (s, [], false))

/-- The element type of an output format code; FP32 for code 11 (R59, R232). -/
def outFormat (v : BitVec 4) : ElemType := (ElemType.ofCode v).getD .f32

/-- The destination of an OPINST that has passed codes 1 and 2 deferred: its slot is installing until the code is written (R403). -/
def State.deferInstall (s : State) (d sl n : Nat) (code : DWord) : Out :=
  ((s.mapSlot sl n (fun q => { q with installing := true, installer := none })).defer d (.opinst sl n code)).retire

/-- OPINST once codes 1 and 2 are passed, on the operator slot `n` of slice `sl`. -/
def State.installOn (s : State) (o : Ops) (sl n : Nat) (va : DWord) (x : OpShape) : Out :=
  let d := o.d.num.toNat
  let q := (s.sliceAt sl).slot n
  let ein := o.ty.size
  let fo := outFormat o.var
  if !q.fits ein fo.size x then s.deferInstall d sl n 4
  else if s.refusesPlots sl (plotsOf q.plots).length then s.deferInstall d sl n 5
  else
    let s0 := (s.wakeSlice sl).mapSlot sl n (fun q => { q with installing := true, installer := some s.cur })
    (s0.fence 1 4).out (fun s1 =>
      (s1.readMatrix va ein x).out (fun r =>
        let s2 := r.1.setPlots sl (plotsOf q.plots) .operator
        (s2.mapSlot sl n (fun q => { q with op := some (.fresh o.ty fo x.m x.n x.s r.2.1 r.2.2) })).deferInstall d sl n 0))

/-- The operator slot whose installation a team's parked OPINST keeps in progress (R403). -/
def State.installBy (s : State) (u : Nat) : Option (Nat × Nat) :=
  s.slices.findSome? (fun p => (p.2.slots.find? (fun q => q.2.installer = some u)).map (fun q => (p.1, q.1)))

/-- The state in which an instruction of class 14 of the issuing team acts: after the team's earlier seals and removals. -/
def State.afterOperators (s : State) : State := s.performOperators s.cur s.team.deferred.length

/-- OPINST (R232): the traps come first, then codes 1, 2, 4 and 5. One reissued for a slot whose valid bit has been cleared meanwhile ends the
installation with code 1 (R333, R403; log 93). -/
def execOpinst (o : Ops) (s0 : State) : Out :=
  let s := s0.afterOperators
  let d := o.d.num.toNat
  let va := s.sreg o.b.num.toNat
  let x := opShape (s.sreg (o.b.num.toNat + 1))
  let ein := o.ty.size
  if va.toNat % ein ≠ 0 || x.stride % ein ≠ 0 then s.trapAt .misalignment va.toNat 0x01
  else
    match s.handleFor (s.ctxOf s.cur) (s.regs.source o.a) with
    | none =>
      match s.installBy s.cur with
      | some (sl, n) => s.deferInstall d sl n 1
      | none => s.retireDeferred d 1
    | some (sl, n) =>
      let q := (s.sliceAt sl).slot n
      if q.installer = some s.cur then s.installOn o sl n va x
      else if q.installing || q.op.isSome then s.retireDeferred d 2
      else s.installOn o sl n va x

/-! ### The other instructions (R233 to R236) -/

/-- OPSEAL (R233). -/
def execOpseal (o : Ops) (s : State) : Out := (s.defer o.d.num.toNat (.opseal (s.regs.source o.a))).retire

/-- OPUNINST (R234). -/
def execOpuninst (o : Ops) (s : State) : Out := (s.defer o.d.num.toNat (.opuninst (s.regs.source o.a))).retire

/-- The installed operator that a handle names for the issuing team, with its slice and slot. -/
def State.operatorFor (s : State) (h : DWord) : Option (Nat × Nat × Operator) :=
  match s.handleFor (s.ctxOf s.cur) h with
  | none => none
  | some (sl, n) => (((s.sliceAt sl).slot n).installed).map (fun p => (sl, n, p))

/-- The word of OPSTAT (R235). -/
def State.operatorStatus (s : State) (h v : DWord) : DWord :=
  match s.operatorFor h with
  | none => 0
  | some (sl, n, p) =>
    let head : DWord := flag 63 true ||| flag 62 p.isSealed
    if p.s ≤ v.toNat then head ||| flag 60 true
    else
      let i := v.toNat
      head ||| flag 61 (decide (0 < snapshotsOf (s.sliceAt sl) n i)) ||| field 48 12 (p.filledElements i)
        ||| field 32 16 (p.applySlot i).overwrites ||| field 0 32 (p.resultSlot i).gen.toNat

/-- Whether the status word of a result slot that OPSTAT reads is poisoned (R175). -/
def State.badStatus (s : State) (h v : DWord) : Bool :=
  match s.operatorFor h with
  | none => false
  | some (_, _, p) => decide (v.toNat < p.s) && (p.resultSlot v.toNat).bad.any (fun b => decide (p.qstride - 8 ≤ b))

/-- OPSTAT (R235). -/
def execOpstat (o : Ops) (s : State) : Out :=
  let s1 := s.afterOperators
  if s1.badStatus (s1.regs.source o.a) (s1.regs.source o.b) then .next (s1.consume s1.cur s1.regs.pc 0 0) else
  s1.retireDeferred o.d.num.toNat (s1.operatorStatus (s1.regs.source o.a) (s1.regs.source o.b))

/-- The word of OPQ (R236). -/
def State.operatorElement (s : State) (h x : DWord) : DWord :=
  let i := bitsOf x 32 32
  let j := bitsOf x 0 32
  match s.handleFor (s.ctxOf s.cur) h with
  | none => field 56 8 1
  | some (sl, n) =>
    match ((s.sliceAt sl).slot n).installed with
    | none => field 56 8 3
    | some p =>
      if p.isSealed then field 56 8 6
      else if p.m ≤ i || p.n ≤ j then field 56 8 7
      else field 0 16 (elementOf p.fmtIn p.matrix (i * p.n + j))

/-- OPQ (R236). -/
def execOpq (o : Ops) (s : State) : Out :=
  let s1 := s.afterOperators
  s1.retireDeferred o.d.num.toNat (s1.operatorElement (s1.regs.source o.a) (s1.regs.source o.b))

/-! ### The operator unit (R178, R227, R229, R333) -/

/-- APPLY_SLOT_WRITE: a write at the slice applied, where its order allows it; a packet whose last byte it is is then published (R211, R290). -/
def execApplySlotWrite (slice index : Nat) (s : State) : Out :=
  if s.mayApply slice index then
    match (s.sliceAt slice).writes[index]? with
    | some ⟨.packet conn, _, _, _, _, _, _⟩ => .next ((s.applyWrite slice index).publishAll conn)
    | _ => .next (s.applyWrite slice index)
  else .next s

/-- OPERATOR_FIRE: lines of the oldest snapshot's result written (R178). -/
def execOperatorFire (run : FireRun) (s : State) : Out := .next (s.fire run.slice run.lines)

/-- OPSLOT_UNINST: the removal of R234 through the management window; it waits for an installation in progress (R403). -/
def execOpslotUninst (slice slot : Nat) (s : State) : Out :=
  let q := (s.sliceAt slice).slot slot
  if q.installing then .next (s.mapSlot slice slot (fun q => { q with removing := true }))
  else if q.op.isSome then .next (s.removeOperator slice slot) else .next s

end Sys2Proof.Machine
end

