-- ==== Sys2Proof/Machine/Loam.lean ====
section
/-! DEFINITION. The loam instructions, the beds of a slice and the steps of its loam engine (R240 to R255). -/
namespace Sys2Proof.Machine

/-! ### Beds (R240 to R245) -/

/-- The lanes of a bed (R240). -/
def Bed.lanes (b : Bed) : Nat := 16384 * (plotsOf b.plots).length

/-- The field of a descriptor (R241). -/
def fieldOf (x : Nat) : Field := ⟨x % 512, x / 512 % 64 + 1, decide (x / 32768 % 2 = 1)⟩

/-- Whether a descriptor is refused: zero bits set, or rows from 480 on (R241, R247). -/
def descriptorBad (x : Nat) : Bool := x / 65536 ≠ 0 || 480 < (fieldOf x).start + (fieldOf x).width

/-- The plots that LMREQ takes in a slice, where it has enough that are free (R242). -/
def Slice.grantable (c : Slice) (n : Nat) : Option (List Nat) :=
  let free := c.cachePlots.filter (fun p => c.plotFree 8 p)
  if free.length < n || 8 ≤ c.beds.length then none else some (free.take n)

/-- The slices that LMREQ tries for a core (R242): the one named, or the neighbour, the others of its die and those of the other dies. -/
def slicesTried (core named : Nat) : List Nat :=
  if named ≠ 0xFF then [named]
  else
    let near := core / 2
    let die := near / 24
    near :: ((List.range 24).map (fun i => 24 * die + i)).filter (fun x => x ≠ near)
      ++ ((List.range 96).filter (fun x => x / 24 ≠ die))

/-- A byte whose bits name plots. -/
def plotBits (ps : List Nat) : Byte := BitVec.ofNat 8 (ps.foldl (fun n p => n + 2 ^ p) 0)

/-- A bed of a slice. -/
def Slice.bed (c : Slice) (n : Nat) : Bed := c.beds.get ⟨0, 0, 0, [], [], false⟩ n

/-- The bed number that a slice gives: the lowest that is free (R242; DESIGN CHOICE, log 97). -/
def Slice.freeBed (c : Slice) : Nat := ((List.range 8).find? (fun b => (c.beds.find b).isNone)).getD 0

/-- A bed granted in a slice, whose island wakes: the state, and the handle (R16, R242, R243). -/
def State.grantBed (s : State) (slice ctx : Nat) (ps : List Nat) : State × DWord :=
  let c := s.sliceAt slice
  let b := c.freeBed
  let s1 := ((s.wakeSlice slice).setPlots slice ps .loam).mapSlice slice (fun c => { c with
    beds := c.beds.set b ⟨plotBits ps, ctx, c.seq, [], [], false⟩, seq := c.seq + 1 })
  (s1.mapCtx ctx (fun r => { r with plots := r.plots + ps.length }),
    field 32 32 (16384 * ps.length) ||| field 16 8 c.seq.toNat ||| flag 15 true ||| field 3 7 slice ||| field 0 3 b)

/-- LMREQ (R242, R243). -/
def execLmreq (o : Ops) (s : State) : Out :=
  let x := s.regs.source o.a
  let d := o.d.num.toNat
  let n := bitsOf x 0 4
  let sl := bitsOf x 8 8
  let ctx := s.ctxOf s.cur
  let tried := slicesTried s.gang.core sl
  if (s.ctxAt ctx).quota < n then s.retireDeferred d 1
  else if bitsOf x 16 48 ≠ 0 || bitsOf x 4 4 ≠ 0 || n = 0 || 8 < n || (96 ≤ sl && sl ≤ 254) then s.retireDeferred d 2
  else
    match tried.find? (fun k => ((s.sliceAt k).grantable n).isSome && !s.refusesPlots k n) with
    | some k =>
      let r := s.grantBed k ctx (((s.sliceAt k).grantable n).getD [])
      r.1.retireDeferred d r.2
    | none => s.retireDeferred d (if tried.any (fun k => ((s.sliceAt k).grantable n).isSome) then 4 else 3)

/-- LMREL (R244): the release enters the scheduler with its bed's region. -/
def execLmrel (o : Ops) (s : State) : Out :=
  let d := o.d.num.toNat
  if s.schedulerFull then s.stallPush
  else
    let id := s.hub.nextCmd
    let k : CmdKind := .loam ⟨(s.regs.source o.a).setWidth 24, .release s.cur id, none⟩
    ((s.enterCommand (.lmrel o) k [] ⟨none, none⟩).defer d (.lmrel id none)).retire

/-! ### Commands at issue (R246, R247) -/

/-- The register pair of a command as words: D, X, Y and M (R246). -/
def State.pairWords (s : State) (o : Ops) : Nat × Nat × Nat × Nat :=
  let lo := s.sreg o.a.num.toNat
  let hi := s.sreg (o.a.num.toNat + 1)
  (bitsOf lo 0 32, bitsOf lo 32 32, bitsOf hi 0 32, bitsOf hi 32 32)

/-- The variant bits of a command: .m, .c and the sub-operation (R246). -/
def isMasked (o : Ops) : Bool := o.var.getLsbD 3

/-- .c of a command. -/
def hasConst (o : Ops) : Bool := o.var.getLsbD 2

/-- The sub-operation of a command. -/
def subOp (o : Ops) : Nat := o.var.toNat % 4

/-- Whether the b field of a command that uses none is not zero (R246). -/
def strayB (o : Ops) : Bool := o.b ≠ .reg 0

/-- The commands of a bed that wait or are performed at its slice (R254). -/
def State.bedQueue (s : State) (slice bed : Nat) : List (Nat × Nat) :=
  (s.sliceAt slice).queue.filter (fun q =>
    match (s.coreAt q.1).command q.2 with
    | some x => x.kind.bed = some (8 * slice + bed)
    | none => false)

/-- A command for the bed of its target, checked and pushed (R109, R246, R247, R254, R372). -/
def State.loamIssue (s : State) (i : Instr) (o : Ops) (stray refused : Bool)
    (build : Bed → Except Stop (LoamOp × Option Field × List Region × Completion)) : Out :=
  if stray then s.trapWord .illegalInstruction i
  else
    match s.targetOf o with
    | some (.loam h) =>
      match s.bedOf (s.ctxOf s.cur) h with
      | none => s.trapEnd .illegalRegister
      | some (sl, n) =>
        if refused then s.trapWord .illegalInstruction i
        else
          match build ((s.sliceAt sl).bed n) with
          | .error e => .next (s.stopAt e)
          | .ok (op, m, rs, c) =>
            if s.schedulerFull then s.stallPush
            else if 64 ≤ (s.bedQueue sl n).length then .next s.stallQueue
            else ((s.enterCommand i (.loam ⟨h, op, m⟩) rs c).sealInterval s.team.gang).retire
    | _ => s.trapEnd .illegalRegister

/-- The stop of a descriptor or count that R247 refuses. -/
def badField : Stop := .trap .illegalRegister 0 0 false

/-- The mask field of a command under .m. -/
def maskField (o : Ops) (m : Nat) : Option Field := if isMasked o then some (fieldOf m) else none

/-- Whether one of the descriptors that a command uses is refused; M is one row wide (R247, R248). -/
def fieldsBad (o : Ops) (used : List Nat) (m : Nat) : Bool :=
  used.any descriptorBad || (isMasked o && (descriptorBad m || (fieldOf m).width ≠ 1))

/-- A computing command: `two` says that it has a second source, which .c replaces by a constant, and `wide1` that D is one row wide
(R246, R249). -/
def State.computeIssue (s : State) (i : Instr) (o : Ops) (stray refused two wide1 : Bool) (op : Field → Field → LoamSrc → LoamOp) : Out :=
  let (d, x, y, m) := s.pairWords o
  let fx := fieldOf x
  let src : LoamSrc :=
    if hasConst o then .const (intOf fx.signed fx.width (s.regs.source o.b).toNat) else .field (fieldOf y)
  s.loamIssue i o stray refused (fun _ =>
    if fieldsBad o ([d, x] ++ (if two && !hasConst o then [y] else [])) m || (wide1 && (fieldOf d).width ≠ 1) then .error badField
    else .ok (op (fieldOf d) fx src, maskField o m, [], ⟨none, none⟩))

/-- A command with two sources and `n` sub-operations (R249). -/
def State.twoIssue (s : State) (i : Instr) (o : Ops) (n : Nat) (wide1 : Bool) (op : Field → Field → LoamSrc → LoamOp) : Out :=
  s.computeIssue i o (!hasConst o && strayB o) (n ≤ subOp o) true wide1 op

/-- A command with one source, `n` sub-operations and no .c, whose b is an operand where `useB` (R249). -/
def State.oneIssue (s : State) (i : Instr) (o : Ops) (n : Nat) (useB wide1 : Bool) (op : Field → Field → LoamOp) : Out :=
  s.computeIssue i o (!useB && strayB o) (hasConst o || n ≤ subOp o) false wide1 (fun d x _ => op d x)

/-- LADD (R249). -/
def execLadd (o : Ops) (s : State) : Out := s.twoIssue (.ladd o) o 1 false .add

/-- LSUB (R249). -/
def execLsub (o : Ops) (s : State) : Out := s.twoIssue (.lsub o) o 1 false .sub

/-- LMUL (R249). -/
def execLmul (o : Ops) (s : State) : Out := s.twoIssue (.lmul o) o 1 false .mul

/-- LLOG (R249): .not takes X alone and no .c. -/
def execLlog (o : Ops) (s : State) : Out :=
  if subOp o = 3 then s.oneIssue (.llog o) o 4 false false (fun d x => .logic 3 d x (.const 0))
  else s.twoIssue (.llog o) o 4 false (.logic (BitVec.ofNat 2 (subOp o)))

/-- LCMP (R249). -/
def execLcmp (o : Ops) (s : State) : Out := s.twoIssue (.lcmp o) o 4 true (.cmp (BitVec.ofNat 2 (subOp o)))

/-- LSEL (R249): .m is required. -/
def execLsel (o : Ops) (s : State) : Out :=
  s.computeIssue (.lsel o) o (!hasConst o && strayB o) (subOp o ≠ 0 || !isMasked o) true false .sel

/-- LMM (R249). -/
def execLmm (o : Ops) (s : State) : Out := s.twoIssue (.lmm o) o 2 false (.mm (subOp o = 1))

/-- LSHF (R249). -/
def execLshf (o : Ops) (s : State) : Out :=
  s.oneIssue (.lshf o) o 3 true false (fun d x => .shift (BitVec.ofNat 2 (subOp o)) d x (bitsOf (s.regs.source o.b) 0 6))

/-- LRED (R249). -/
def execLred (o : Ops) (s : State) : Out :=
  s.oneIssue (.lred o) o 4 true false (fun d x => .red (BitVec.ofNat 2 (subOp o)) d x (bitsOf (s.regs.source o.b) 0 5))

/-- LMATCH (R249). -/
def execLmatch (o : Ops) (s : State) : Out :=
  s.oneIssue (.lmatch o) o 1 true true (fun d x => .matches d x (s.regs.source o.b))

/-- LCNT (R249). -/
def execLcnt (o : Ops) (s : State) : Out := s.oneIssue (.lcnt o) o 1 false false .count

/-- The element size of a field in memory (R250). -/
def Field.elemSize (f : Field) : Nat := if f.width ≤ 8 then 1 else if f.width ≤ 16 then 2 else if f.width ≤ 32 then 4 else 8

/-- LMIN and LMOUT at issue (R247, R250). -/
def State.moveIssue (s : State) (i : Instr) (o : Ops) (writes : Bool) (op : Field → Nat → Nat → DWord → LoamOp) : Out :=
  let (d, l0, n, m) := s.pairWords o
  let f := fieldOf d
  let va := s.regs.source o.b
  let acc : Byte := if writes then 0x22 else 0x21
  s.loamIssue i o false (o.var.toNat % 8 ≠ 0) (fun b =>
    if fieldsBad o [d] m || n = 0 || b.lanes < l0 + n then .error badField
    else if 2 ^ 57 ≤ va.toNat then .error (stopEnd .pageNotPresent va.toNat acc)
    else if va.toNat % f.elemSize ≠ 0 then .error (stopEnd .misalignment va.toNat acc)
    else .ok (op f l0 n va, maskField o m, [⟨va.toNat, n * f.elemSize, writes⟩], ⟨none, none⟩))

/-- LMIN (R250). -/
def execLmin (o : Ops) (s : State) : Out := s.moveIssue (.lmin o) o false .lmin

/-- LMOUT (R250). -/
def execLmout (o : Ops) (s : State) : Out := s.moveIssue (.lmout o) o true .lmout

/-- LDONE (R252). -/
def execLdone (o : Ops) (s : State) : Out :=
  let off := (s.regs.source o.a).toNat
  s.loamIssue (.ldone o) o false (o.var ≠ 0) (fun _ =>
    match s.wordCheck off with
    | some e => .error e
    | none => .ok (.done off ((s.regs.source o.b).setWidth 32), none, [⟨windowBase + off, 4, true⟩], ⟨none, none⟩))

/-! ### Rows (R241, R248, R249) -/

/-- The bits that lane i of a field holds. -/
def Bed.raw (b : Bed) (f : Field) (i : Nat) : Nat :=
  (List.range f.width).foldl (fun n p => if (b.rows.get 0 (f.start + p)).getLsbD i then n + 2 ^ p else n) 0

/-- v(F, i) (R241). -/
def Bed.value (b : Bed) (f : Field) (i : Nat) : Int := intOf f.signed f.width (b.raw f i)

/-- Whether lane i of a field is poisoned (R255). -/
def Bed.bad (b : Bed) (f : Field) (i : Nat) : Bool :=
  (List.range f.width).any (fun p => (b.poison.get 0 (f.start + p)).getLsbD i)

/-- Lane i of a field written with the low bits of a value, and its poison set or cleared (R241, R255). -/
def Bed.put (b : Bed) (f : Field) (i n : Nat) (bad : Bool) : Bed :=
  let bit : BedRow := 1#131072 <<< i
  let setBit (m : Map BedRow) (r : Nat) (x : Bool) : Map BedRow :=
    m.put 0 r (if x then m.get 0 r ||| bit else m.get 0 r &&& ~~~bit)
  (List.range f.width).foldl (fun (b : Bed) p => { b with
    rows := setBit b.rows (f.start + p) (decide (n / 2 ^ p % 2 = 1))
    poison := setBit b.poison (f.start + p) bad }) b

/-- The value of a second source in a lane. -/
def LoamSrc.value (y : LoamSrc) (b : Bed) (i : Nat) : Int := match y with | .field f => b.value f i | .const c => c

/-- The fields that a second source reads. -/
def LoamSrc.fields (y : LoamSrc) : List Field := match y with | .field f => [f] | .const _ => []

/-- The identity that LRED takes for a lane beyond the bed (R249). -/
def loamIdentity (op : BitVec 2) (f : Field) : Int :=
  match op.toNat with
  | 1 => if f.signed then 2 ^ (f.width - 1) - 1 else 2 ^ f.width - 1
  | 2 => if f.signed then -(2 ^ (f.width - 1) : Int) else 0
  | _ => 0

/-- The reduction of LRED on a pair of values, as bits of width w (R249). -/
def redPair (op : BitVec 2) (w : Nat) (x y : Int) : Nat :=
  match op.toNat with
  | 0 => wrap w (x + y)
  | 1 => wrap w (min x y)
  | 2 => wrap w (max x y)
  | _ => wrap w x ||| wrap w y

/-- A one-bit result. -/
def bitNat (b : Bool) : Nat := if b then 1 else 0

/-- What a computing command does in lane i: its destination, the bits of its result, and the fields and lanes that it reads (R249). `sel`
is the M bit of LSEL. LRED reads lane i + 2^j as well as lane i, so either's poison reaches lane i of D (R255; DEDUCED, log 98). -/
def LoamOp.lane (op : LoamOp) (b : Bed) (sel : Bool) (i : Nat) : Option (Field × Nat × List (Field × Nat)) :=
  let two (d x : Field) (y : LoamSrc) (n : Nat) : Option (Field × Nat × List (Field × Nat)) :=
    some (d, n, (x, i) :: y.fields.map (fun f => (f, i)))
  match op with
  | .add d x y => two d x y (wrap d.width (b.value x i + y.value b i))
  | .sub d x y => two d x y (wrap d.width (b.value x i - y.value b i))
  | .mul d x y => two d x y (wrap d.width (b.value x i * y.value b i))
  | .logic k d x y =>
    let p := wrap d.width (b.value x i)
    let q := wrap d.width (y.value b i)
    two d x y (match k.toNat with
      | 0 => p &&& q
      | 1 => p ||| q
      | 2 => p ^^^ q
      | _ => 2 ^ d.width - 1 - p)
  | .cmp k d x y =>
    let p := b.value x i
    let q := y.value b i
    two d x y (bitNat (match k.toNat with
      | 0 => decide (p = q)
      | 1 => decide (p ≠ q)
      | 2 => decide (p < q)
      | _ => decide (q ≤ p)))
  | .sel d x y => two d x y (wrap d.width (if sel then b.value x i else y.value b i))
  | .mm isMax d x y => two d x y (wrap d.width (if isMax then max (b.value x i) (y.value b i) else min (b.value x i) (y.value b i)))
  | .shift k d x n => some (d, match k.toNat with
      | 0 => wrap d.width (b.value x i * 2 ^ n)
      | 1 => b.raw x i / 2 ^ n % 2 ^ d.width
      | _ => wrap d.width (b.value x i / 2 ^ n), [(x, i)])
  | .red k d x j =>
    let inside := decide (i + 2 ^ j < b.lanes)
    some (d, redPair k d.width (b.value x i) (if inside then b.value x (i + 2 ^ j) else loamIdentity k x),
      (x, i) :: if inside then [(x, i + 2 ^ j)] else [])
  | .matches d x key => some (d, bitNat (b.raw x i = key.toNat % 2 ^ x.width), [(x, i)])
  | .count d x => some (d, ((List.range x.width).filter (fun p => (b.raw x i).testBit p)).length % 2 ^ d.width, [(x, i)])
  | _ => none

/-- A computing command performed in every lane of the bed; every source is read before any destination is written (R248, R249, R255). -/
def LoamCmd.compute (c : LoamCmd) (b : Bed) : Bed :=
  let isSel : Bool := match c.op with | .sel _ _ _ => true | _ => false
  (List.range b.lanes).foldl (fun (out : Bed) i =>
    let on : Bool := match c.mask with | some m => b.value m i ≠ 0 | none => true
    let mbad : Bool := match c.mask with | some m => b.bad m i | none => false
    match c.op.lane b on i with
    | none => out
    | some (d, n, reads) =>
      let bad := mbad || reads.any (fun r => b.bad r.1 r.2)
      if isSel || on then out.put d i n bad
      else if mbad then out.put d i (b.raw d i) true
      else out) b

/-! ### The loam engine (R244, R245, R250 to R254) -/

/-- The slice and bed of a loam command. -/
def LoamCmd.place (c : LoamCmd) : Nat × Nat := (c.handle.toNat / 8 % 128, c.handle.toNat % 8)

/-- A bed of a slice changed. -/
def State.mapBed (s : State) (slice bed : Nat) (f : Bed → Bed) : State :=
  s.mapSlice slice (fun c => { c with beds := c.beds.update bed f })

/-- The slice without a command in its queue; where the engine performed it, it performs none (R253). -/
def Slice.leave (c : Slice) (core id : Nat) : Slice :=
  { c with queue := c.queue.filter (fun q => q ≠ (core, id)), running := if c.running = some (core, id) then none else c.running }

/-- A loam command gone from its scheduler and from the slice's queue. -/
def State.dropLoam (s : State) (slice core id : Nat) : State :=
  ((s.mapCore core (fun k => k.dropCommand id)).mapSlice slice (fun c => c.leave core id)).mapHub (fun h => h.release (fun k => k ≠ .command core id))

/-- A loam command that does not complete: it is removed, and its team takes 0x03 at its next boundary (R244). -/
def State.refuseLoam (s : State) (slice core : Nat) (x : Cmd) : State := (s.dropLoam slice core x.id).charge x .illegalRegister 0 0 none

/-- The commands for a bed, in every core's scheduler, that are no releases. -/
def State.bedCommands (s : State) (slice bed : Nat) : List (Nat × Cmd) :=
  (s.cores.map (fun p => (p.2.cmds.filter (fun x => x.kind.bed = some (8 * slice + bed) && !x.isRelease)).map (fun x => (p.1, x)))).flatten

/-- A bed ended: its commands are refused, its plots zeroed and returned, the quota restored (R174, R244, R245). -/
def State.endBed (s : State) (slice bed : Nat) : State :=
  match (s.sliceAt slice).beds.find bed with
  | none => s
  | some b =>
    let s1 := (s.bedCommands slice bed).foldl (fun (s : State) p => s.refuseLoam slice p.1 p.2) s
    let s2 := s1.mapSlice slice (fun c => { c with beds := c.beds.erase bed })
    (s2.setPlots slice (plotsOf b.plots) .cache).mapCtx b.ctx (fun r => { r with plots := r.plots - (plotsOf b.plots).length })

/-- The result of an LMREL given to its team, by the number of its command. -/
def State.releaseResult (s : State) (u id : Nat) (x : DWord) : State :=
  s.mapTeam u (fun t => { t with deferred := t.deferred.map (fun k =>
    match k.op with
    | .lmrel n none => if n = id then { k with op := .lmrel id (some x) } else k
    | _ => k) })

/-- A release at its point P, its arrival at the slice (R244). Where its handle names no live bed the result is 1; else the bed is ended for
every command that has not arrived, which is refused, and the release waits in the queue behind those that have. -/
def State.arriveRelease (s : State) (core : Nat) (x : Cmd) (l : LoamCmd) (u id : Nat) : State :=
  match s.bedOf x.ctx l.handle with
  | none => (s.mapCore core (fun k => k.dropCommand x.id)).releaseResult u id 1
  | some (sl, n) =>
    let s1 := ((s.bedCommands sl n).filter (fun p => !p.2.started)).foldl (fun (s : State) p => s.refuseLoam sl p.1 p.2) s
    (s1.mapCore core (fun k => k.mapCommand x.id (fun y => { y with started := true }))).mapSlice sl
      (fun c => { c with queue := c.queue ++ [(core, x.id)] })

/-- A release whose turn in the queue has come: every command before it has completed; the bed's plots and quota go back (R244). -/
def State.performRelease (s : State) (x : Cmd) (l : LoamCmd) (u id : Nat) : State :=
  match s.bedAt x.ctx l.handle with
  | none => s.releaseResult u id 0
  | some (sl, n) => (s.endBed sl n).releaseResult u id 0

/-- A fault of a loam command's memory access (R251): it stops, and the engine takes another bed's command; where it does not park
its team, it is held until the team takes the cause, and then goes with the later commands of its team for the bed (R360). -/
def State.loamStop (s : State) (slice core : Nat) (x : Cmd) (e : Stop) : State :=
  match e with
  | .trap _ _ _ _ => (s.mapSlice slice (fun c => { c with running := none })).commandStop core x e
  | .wait r => s.request r
  | _ => s

/-- The elements of a run of an LMIN or LMOUT from element k on: those that lie in one 128-byte line, and in the local window before the end of the
scratchpad, so that an element that lies beyond it takes its own fault (R251). -/
def runElements (va : DWord) (z k n scratch : Nat) : Nat :=
  let a := va.toNat + k * z
  let m := min (n - k) ((128 - a % 128) / z)
  if inWindow a && decide (a - windowBase < scratch) then max 1 (min m ((scratch - (a - windowBase)) / z)) else m

/-- The progress of a command. -/
def State.setProgress (s : State) (core id n : Nat) : State := s.mapCore core (fun k => k.mapCommand id (fun y => { y with progress := n }))

/-- One run of an LMIN: every lane is read, and the lanes that the mask lets through are written (R250, R251). -/
def State.lminRun (s : State) (core : Nat) (x : Cmd) (l : LoamCmd) (d : Field) (l0 n : Nat) (va : DWord) : State :=
  let z := d.elemSize
  let k := x.progress
  let m := runElements va z k n (s.gangAt x.gang).scratch
  match s.engineReadMarked core x.gang x.ctx (va.toNat + k * z) (m * z) 0x21 with
  | .error (e, s1) => s1.loamStop l.place.1 core x e
  | .ok (s1, bs) =>
    let fill (b : Bed) : Bed := (List.range m).foldl (fun (b : Bed) j =>
      let part := (bs.drop (j * z)).take z
      let i := l0 + k + j
      let on : Bool := match l.mask with | some f => b.value f i ≠ 0 | none => true
      let mbad : Bool := match l.mask with | some f => b.bad f i | none => false
      if on then b.put d i (leNat (part.map (fun p => p.1))) (mbad || part.any (fun p => p.2))
      else if mbad then b.put d i (b.raw d i) true else b) b
    (s1.mapBed l.place.1 l.place.2 fill).setProgress core x.id (k + m)

/-- One run of an LMOUT: the elements that the mask lets through, and those whose mask is poisoned, in ascending order, each run of them one write
(R250, R251, R255). -/
def State.lmoutRun (s : State) (core : Nat) (x : Cmd) (l : LoamCmd) (d : Field) (l0 n : Nat) (va : DWord) : State :=
  let z := d.elemSize
  let k := x.progress
  let m := runElements va z k n (s.gangAt x.gang).scratch
  let b := (s.sliceAt l.place.1).bed l.place.2
  let on (j : Nat) : Bool := match l.mask with | some f => b.value f (l0 + k + j) ≠ 0 || b.bad f (l0 + k + j) | none => true
  let bad (j : Nat) : Bool := b.bad d (l0 + k + j) || (match l.mask with | some f => b.bad f (l0 + k + j) | none => false)
  let skip := ((List.range m).takeWhile (fun j => !on j)).length
  let len := ((List.range (m - skip)).takeWhile (fun j => on (skip + j))).length
  let bs : List (Byte × Bool) := ((List.range len).map (fun j =>
    (leBytes z (wrap (8 * z) (b.value d (l0 + k + skip + j)))).map (fun y => (y, bad (skip + j))))).flatten
  let a := va.toNat + (k + skip) * z
  if len = 0 then s.setProgress core x.id (k + m)
  else
    match s.engineWriteMarked none x.gang x.ctx (.command core x.id) a bs 0x22 with
    | .error (e, s1) => s1.loamStop l.place.1 core x e
    | .ok s1 => (s1.audited x.gang a (bs.map (fun p => p.1))).setProgress core x.id (k + skip + len)

/-- A command complete: gone from its scheduler and from the queue. -/
def State.endLoam (s : State) (core : Nat) (x : Cmd) (l : LoamCmd) : State := s.dropLoam l.place.1 core x.id

/-- An arrived command performed, up to `runs` runs of an LMIN or LMOUT; the others are performed whole. An LMOUT completes once its writes are
performed, those on their way to an apply slot included (R213, R244, R248 to R252). -/
def State.performLoam (s : State) (core id runs : Nat) : State :=
  match runs with
  | 0 => s
  | r + 1 =>
    match (s.coreAt core).command id with
    | none => s
    | some x =>
      match x.kind with
      | .loam l =>
        let moved (n : Nat) (s1 : State) : State :=
          match (s1.coreAt core).command id with
          | some y =>
            if y.stopped then s1
            else if n ≤ y.progress then (if s1.writesOf (.command core id) then s1 else s1.endLoam core y l)
            else s1.performLoam core id r
          | none => s1
        match l.op with
        | .lmin d l0 n va => moved n (s.lminRun core x l d l0 n va)
        | .lmout d l0 n va => moved n (s.lmoutRun core x l d l0 n va)
        | .done off v => (s.endLoam core x l).storeGang x.gang off (leBytes 4 v.toNat)
        | .release u n => (s.endLoam core x l).performRelease x l u n
        | _ => (s.mapBed l.place.1 l.place.2 l.compute).endLoam core x l
      | _ => s

/-- The arrived command that the engine performs next: the one that it has begun, else the oldest whose bed no stopped command holds (R251,
R253). -/
def State.nextLoam (s : State) (slice : Nat) : Option (Nat × Nat) :=
  let cmd (q : Nat × Nat) : Option Cmd := (s.coreAt q.1).command q.2
  let stopped : List (Option Nat) := ((s.sliceAt slice).queue.filterMap cmd).filterMap (fun x => if x.stopped then some x.kind.bed else none)
  match (s.sliceAt slice).running.filter (fun q => (cmd q).any (fun x => !x.stopped)) with
  | some q => some q
  | none => (s.sliceAt slice).queue.find? (fun q => match cmd q with | some x => !stopped.contains x.kind.bed | none => false)

/-- An arrived command at the slice: it joins the queue, or is refused where its handle names no live bed any more (R244, R254). -/
def State.arriveLoam (s : State) (core : Nat) (x : Cmd) (l : LoamCmd) : State :=
  match s.bedOf x.ctx l.handle with
  | none => s.refuseLoam l.place.1 core x
  | some _ => (s.mapCore core (fun k => k.mapCommand x.id (fun y => { y with started := true }))).mapSlice l.place.1
      (fun c => { c with queue := c.queue ++ [(core, x.id)] })

/-- The beds of a slice that are destroyed, and whose last command is done, ended (R245). -/
def State.settleBeds (s : State) (slice : Nat) : State :=
  (s.sliceAt slice).beds.foldl (fun (s : State) p =>
    if p.2.dying && (s.bedCommands slice p.1).isEmpty then s.endBed slice p.1 else s) s

/-- The engine of a slice goes on with the command that it performs, or begins the next one (R253). -/
def State.stepLoam (s : State) (slice runs : Nat) : State :=
  match s.nextLoam slice with
  | some q => ((s.mapSlice slice (fun c => { c with running := some q })).performLoam q.1 q.2 runs).settleBeds slice
  | none => s

/-- LOAM_COMMAND_PERFORM: the command named arrives, where it has not and may; then the engine performs the next arrived command. -/
def execLoamCommandPerform (slice core command runs : Nat) (s : State) : Out :=
  let go (s : State) : State := s.stepLoam slice runs
  let c := s.coreAt core
  match c.command command with
  | none => .next s
  | some x =>
    match x.kind with
    | .loam l =>
      let queued := (s.bedQueue l.place.1 l.place.2).length
      if l.place.1 ≠ slice then .next s
      else if x.started then .next (go s)
      else if !s.unblocked x then .next s
      else
        match l.op with
        | .release u n =>
          if queued < 64 || (s.bedOf x.ctx l.handle).isNone then .next (go (s.arriveRelease core x l u n)) else .next s
        | _ => if queued < 64 then .next (go (s.arriveLoam core x l)) else .next s
    | _ => .next s

/-- The runs in which a command is performed at most: one for each element of an LMIN or LMOUT. -/
def LoamOp.elements (op : LoamOp) : Nat := match op with | .lmin _ _ n _ => n | .lmout _ _ n _ => n | _ => 1

/-- A bed destroyed: the command that the engine is performing completes, now or as its accesses allow, and every other command of the bed is
refused; the bed ends with the last of them (R245). -/
def State.destroyBed (s : State) (slice bed : Nat) : State :=
  match (s.bedCommands slice bed).find? (fun p => (s.sliceAt slice).running = some (p.1, p.2.id)) with
  | none => s.endBed slice bed
  | some p =>
    let others := (s.bedCommands slice bed).filter (fun q => !(q.1 = p.1 && q.2.id = p.2.id))
    let s1 := (others.foldl (fun (s : State) q => s.refuseLoam slice q.1 q.2) s).mapBed slice bed (fun b => { b with dying := true })
    match p.2.kind with
    | .loam l => (s1.performLoam p.1 p.2.id l.op.elements).settleBeds slice
    | _ => s1

/-- The handle of a bed (R242). -/
def Bed.handle (b : Bed) (slice bed : Nat) : BitVec 24 := BitVec.ofNat 24 (65536 * b.seq.toNat + 32768 + 8 * slice + bed)

/-- BED_DESTROY: it finds no bed where a release has passed its point P; a bed already destroyed ends once its last command is done (R244,
R245). -/
def execBedDestroy (slice bed : Nat) (s : State) : Out :=
  match (s.sliceAt slice).beds.find bed with
  | none => .next s
  | some b => if b.dying then .next (s.settleBeds slice) else if s.releasing b.ctx (b.handle slice bed) then .next s else .next (s.destroyBed slice bed)

end Sys2Proof.Machine
end

