-- ==== Sys2Proof/Machine/Processor.lean ====
section
/-! DEFINITION. The command processors: packets of host queues, signals, admission, placement and retirement of gangs, completion of
dispatches, continuations, FETCHW mailboxes, fault rings, queue teardown and the replay auditor (R32 to R37, R46, R99 to R101, R217, R265 to
R273, R336, R337, R354, R374 to R376). -/
namespace Sys2Proof.Machine

/-! ### Memory as a command processor sees it -/

/-- A number that names no core: a command processor's accesses meet no L1 (R217). -/
def noCore : Nat := 192

/-- A read by a command processor in a context. No gang's local window is reached from here. -/
def State.cpRead (s : State) (ctx va n : Nat) : Res (State × List Byte) :=
  if inWindow va || inWindow (va + n - 1) then .error (stopEnd .windowKind va 0x01, s) else s.engineRead noCore 0 ctx va n 0x01

/-- A write by a command processor in a context. -/
def State.cpWrite (s : State) (ctx va : Nat) (bs : List Byte) : Res State :=
  if inWindow va || inWindow (va + bs.length - 1) then .error (stopEnd .windowKind va 0x02, s) else s.engineWrite none 0 ctx .other va bs 0x02

/-- A record of a command processor (R273): source 3 or 4, no team. -/
def State.cpRecord (s : State) (q : Nat) (source : Byte) (dispid : Nat) (c : Cause) (acc : Byte) (addr : DWord) : FaultRecord :=
  ⟨s.fnOf (s.queueAt q).ctx, 0, acc, source, c, addr, 0, dispid, 0, 0, 0, q % 512⟩

/-! ### Signals (R267) -/

/-- A signal's word after a raise: the count rises, and the first error is marked (R267). -/
def raised (w : DWord) (err : Option Cause) : DWord :=
  let counted : DWord := (w &&& 0xFFFFFFFF00000000#64) ||| ((w + 1) &&& 0xFFFFFFFF#64)
  match err with
  | none => counted
  | some c => if w.getLsbD 63 then counted else (counted &&& ~~~0xFF00000000#64) ||| (c.code.setWidth 64 <<< 32) ||| flag 63 true

/-- A signal raised by a command processor in its queue's context: a fault writes a record and the queue goes on; only an answer that the
host owes stops it. -/
def State.raiseSignal (s : State) (q dispid : Nat) (va : DWord) (err : Option Cause) : Res State :=
  let ctx := (s.queueAt q).ctx
  let failed (c : Cause) : Res State := .ok (s.addRecord (s.cpRecord q 3 dispid c 0x08 va) false).1
  if va = 0 then .ok s
  else if va.toNat % 8 ≠ 0 then failed .misalignment
  else if inWindow va.toNat then failed .windowKind
  else
    match s.translate .agent ctx va.toNat .atomic 0x08 with
    | .error (.trap c _ _ _, _) => failed c
    | .error e => .error e
    | .ok (s1, leaf, pa) =>
      match s1.placeOf ctx va.toNat leaf pa with
      | .error c => failed c
      | .ok p =>
        let path := s1.pathOf none ctx leaf pa 0
        match s1.readHome va.toNat p 8 path with
        | .error (.poison _, _) => failed .errorConsumed
        | .error e => .error e
        | .ok (s2, bs) => s2.writePlace ctx va.toNat .other p (leBytes 8 (raised (BitVec.ofNat 64 (leNat bs)) err).toNat) [] path

/-! ### Teardown (R376) -/

/-- The dispatches of a queue that have an entry. -/
def State.dispatchesOf (s : State) (q : Nat) : List Nat :=
  (s.hub.dispatches.filter (fun p => p.2.valid && p.2.queue = q)).map (fun p => p.1)

/-- Teardown of a host queue: its dispatches end, the torn bit is set, and a record with no team is written. -/
def State.tearDown (s : State) (q : Nat) (c : Cause) : State :=
  let s1 := (s.dispatchesOf q).foldl (fun (s : State) d => s.endDispatch d c) s
  ((s1.mapQueue q (fun x => { x with torn := some c })).addRecord (s1.cpRecord q 3 0 c 0 0) false).1

/-! ### Taking packets (R265, R266, R268) -/

/-- The address of the ring slot that a queue reads next (R265). -/
def HostQueue.slotVA (q : HostQueue) : Nat := (q.ring &&& 0x1FFFFFFFFFFF000#64).toNat + 64 * (q.readIdx % 2 ^ q.k)

/-- The type of a well-formed header (R266). -/
def headerType (h : Nat) : Option Nat := if h / 65536 ≠ 0 || h / 8 % 32 ≠ 0 || 3 < h / 256 % 256 then none else some (h / 256 % 256)

/-- The bytes of a packet as a number. -/
def packetField (bs : List Byte) (i n : Nat) : Nat := leNat ((bs.drop i).take n)

/-- A doubleword of a packet. -/
def packetDword (bs : List Byte) (i : Nat) : DWord := BitVec.ofNat 64 (packetField bs i 8)

/-- Whether a queue may take a packet: it runs, a packet is published, and neither a WAIT nor a fault holds it. Its continuations stand where their
predecessor packets stood, and come first (R271; log 76). In the safe state no queue is taken (R265, R267, R331, R391). -/
def State.queueOpen (s : State) (q : Nat) : Bool :=
  let x := s.queueAt q
  x.valid && !x.suspended && decide (x.readIdx < x.kick) && x.wait.isNone && !x.slotHeld && x.conts.isEmpty && !s.platform.safe

/-- The lowest free entry of the dispatch table of a queue's command processor (R337). -/
def State.freeEntry (s : State) (q : Nat) : Option Nat :=
  (List.range 256).find? (fun i => !s.hub.dispatches.any (fun p => p.2.valid && cpOf p.2.queue = cpOf q && p.2.slot = i))

/-- Whether a header lets its packet start: with B, when every earlier packet has completed; a malformed one waits for none (R266). -/
def HostQueue.headerReady (x : HostQueue) (h : Nat) : Bool :=
  h % 2 = 1 && ((headerType h).isNone || h / 2 % 2 = 0 || x.taken.isEmpty)

/-- Whether a queue has a ready packet: a DISPATCH that finds no free entry waits (R268, R337). -/
def State.packetReady (s : State) (q : Nat) : Bool :=
  let x := s.queueAt q
  s.queueOpen q &&
    (match s.cpRead x.ctx x.slotVA 8 with
     | .ok r => x.headerReady (leNat r.2) && (headerType (leNat r.2) ≠ some 1 || x.torn.isSome || (s.freeEntry q).isSome)
     | .error _ => false)

/-- The place of a queue in the turn of its command processor, counted from the queue after the last one taken (R268). -/
def State.turnRank (s : State) (q : Nat) : Nat := (q + 32768 - s.hub.turns.get 0 (cpOf q) - 1) % 32768

/-- Whether a queue has a continuation to release: one that finds no free entry waits (R271, R337). -/
def State.contReady (s : State) (q : Nat) : Bool :=
  let x := s.queueAt q
  x.valid && !x.suspended && !s.platform.safe &&
    (match x.conts with
     | [] => false
     | r :: _ => x.torn.isSome || (shapeOf r.shape).isNone || (s.freeEntry q).isSome)

/-- Whether another queue of the command processor goes first: one of higher priority, or of equal priority and earlier in the turn, with
a ready packet or continuation (R268, R271). -/
def State.outranked (s : State) (q : Nat) : Bool :=
  let x := s.queueAt q
  s.hub.queues.any (fun p => p.1 ≠ q && cpOf p.1 = cpOf q &&
    (decide (x.prio.toNat < p.2.prio.toNat) || (p.2.prio = x.prio && decide (s.turnRank p.1 < s.turnRank q))) && (s.packetReady p.1 || s.contReady p.1))

/-- A ring access of a queue that failed: the queue takes no packet until RESUME (R265). -/
def State.ringStop (s : State) (q : Nat) (e : Stop) : State :=
  let x := s.queueAt q
  match e with
  | .trap c _ acc _ =>
    ((s.mapQueue q (fun y => { y with slotHeld := true })).holdFault (s.cpRecord q 3 0 c acc (BitVec.ofNat 64 x.slotVA))
      (faultPage x.ctx c (BitVec.ofNat 64 x.slotVA)) (.ringSlot q)).1
  | .wait r => s.request r
  | _ => s.tearDown q .unattributable

/-- The next packet of a queue, where it is ready and of the type: its V bit is seen first and the rest is read after it. -/
def State.packetTurn (s : State) (q : Nat) (type : Option Nat) (f : State → List Byte → Out) : Out :=
  let x := s.queueAt q
  if !s.queueOpen q || s.outranked q then .next s
  else
    match s.cpRead x.ctx x.slotVA 8 with
    | .error (e, s1) => .next (s1.ringStop q e)
    | .ok (s1, hb) =>
      if !x.headerReady (leNat hb) || headerType (leNat hb) ≠ type then .next s
      else
        match s1.cpRead x.ctx x.slotVA 64 with
        | .error (e, s2) => .next (s2.ringStop q e)
        | .ok (s2, bs) => f s2 bs

/-- A packet taken: DISPID is written, where there is one, then the header with V = 0, and the read index advances; `f` is the effect. A
ring write that fails leaves everything as it was but for the hold. -/
def State.takePacket (s : State) (q : Nat) (bs : List Byte) (dispid : Option Nat) (f : State → Res State) : Out :=
  let x := s.queueAt q
  let named : Res State := match dispid with
    | some d => s.cpWrite x.ctx (x.slotVA + 56) (leBytes 4 d)
    | none => .ok s
  let cleared : Res State := match named with
    | .error e => .error e
    | .ok s1 => s1.cpWrite x.ctx x.slotVA (leBytes 8 (packetField bs 0 8 - 1))
  match cleared with
  | .error (e, _) => .next (s.ringStop q e)
  | .ok s2 =>
    match f ((s2.mapQueue q (fun y => { y with readIdx := y.readIdx + 1 })).mapHub (fun h => { h with turns := h.turns.set (cpOf q) q })) with
    | .error (.wait r, _) => .next (s.request r)
    | .error _ => .next s
    | .ok s3 => .next s3

/-- KICK_REGISTER_WRITE (R265). -/
def execKickRegisterWrite (queue : Nat) (value : DWord) (s : State) : Out :=
  .next (s.mapQueue queue (fun q => { q with kick := max q.kick value.toNat }))

/-- QUEUE_RECORD_WRITE: the valid and suspended bits of a host queue record; valid from 0 to 1 starts the queue afresh and clears its torn
bit (R331, R376). -/
def execQueueRecordWrite (queue : Nat) (valid suspended : Bool) (s : State) : Out :=
  .next (s.mapQueue queue (fun q => { q with valid := valid, suspended := suspended, torn := if valid && !q.valid then none else q.torn }))

/-! ### The core store (R32, R99, R101) -/

/-- The size of the core store and what of it gangs may take (R32). -/
def storeSize : Nat := 1048576

/-- A number of bytes rounded up to a power of two of at least 4 KiB. -/
def blockSize (n : Nat) : Nat := if n ≤ 4096 then 4096 else 2 ^ (Nat.log2 (n - 1) + 1)

/-- The blocks of a gang: one for each team, then its scratchpad, and again for a rollback shadow (R32, R99, R371). -/
def Shape.blocks (x : Shape) (rollback : Bool) : List Nat :=
  let own := List.replicate x.nteams (blockSize (x.tw * x.vregs * 4)) ++ (if x.scratch = 0 then [] else [blockSize x.scratch])
  if rollback then own ++ own else own

/-- Whether a range of the core store belongs to no gang. -/
def blockFree (used : List (Nat × Nat)) (base size : Nat) : Bool := used.all (fun u => u.1 + u.2 ≤ base || base + size ≤ u.1)

/-- Whether a free block is a whole free block of the allocator: its buddy is not free (R99). -/
def blockWhole (used : List (Nat × Nat)) (base size : Nat) : Bool :=
  size = storeSize || !blockFree used (base / (2 * size) * (2 * size)) (2 * size)

/-- The block that a request takes: the lowest of its size, or the start of the lowest larger one (R99). -/
def allocBlock (used : List (Nat × Nat)) (size : Nat) : Option Nat :=
  let bases := (List.range (storeSize / size)).map (fun i => i * size)
  match bases.find? (fun b => blockFree used b size && blockWhole used b size) with
  | some b => some b
  | none => bases.find? (fun b => blockFree used b size)

/-- The blocks that a list of requests takes, or none where one fails (R99). -/
def allocBlocks (used : List (Nat × Nat)) (sizes : List Nat) : Option (List (Nat × Nat)) :=
  match sizes with
  | [] => some []
  | n :: r =>
    match allocBlock used n with
    | none => none
    | some b => (allocBlocks (used ++ [(b, n)]) r).map (fun l => (b, n) :: l)

/-- The bytes of a list of blocks. -/
def blockBytes (l : List (Nat × Nat)) : Nat := (l.map (fun b => b.2)).sum

/-- Blocks granted beside those in use, with at least 64 KiB left as L1 (R32). -/
def grantBlocks (used : List (Nat × Nat)) (sizes : List Nat) : Option (List (Nat × Nat)) :=
  (allocBlocks used sizes).filter (fun l => blockBytes used + blockBytes l ≤ 983040)

/-- Whether a gang fits an empty core (R32, R33). -/
def Shape.fits (x : Shape) (rollback : Bool) : Bool := (grantBlocks [] (x.blocks rollback)).isSome

/-- The teams of the resident gangs of a core. -/
def State.residentTeams (s : State) (core : Nat) : List Nat := ((s.residents core).map (fun g => s.teamsOf g)).flatten

/-- The valid mapping entries of a context that name a gang (R332). -/
def State.mappingsFor (s : State) (ctx dispid glin : Nat) : List Nat :=
  (List.range 64).filter (fun e =>
    let m := s.hub.mappings.get .none (64 * ctx + e)
    m.valid && !m.removing && m.dispatch = dispid && m.glin = glin)

/-- Whether a core has room for a gang but for its blocks: team, gang and mapping slots, and no suspicion (R32, R33, R332, R375). -/
def State.slotsOn (s : State) (core nteams mapped : Nat) : Bool :=
  let k := s.coreAt core
  !(k.suspect || s.platform.safe || 64 < (s.residentTeams core).length + nteams || 64 ≤ (s.residents core).length
    || 64 < k.mappings.length + mapped)

/-- The blocks that a gang would take on a core, where it has room (R32, R33). -/
def State.roomOn (s : State) (core : Nat) (x : Shape) (rollback : Bool) (mapped : Nat) : Option (List (Nat × Nat)) :=
  if s.slotsOn core x.nteams mapped then grantBlocks (s.blocksOn core) (x.blocks rollback) else none

/-- An entry put in its place among blocks ordered largest first, then by address. -/
def insertBlock (x : Nat × Nat × Nat) (l : List (Nat × Nat × Nat)) : List (Nat × Nat × Nat) :=
  match l with
  | [] => [x]
  | y :: r => if y.2.2 < x.2.2 || (y.2.2 = x.2.2 && x.2.1 < y.2.1) then x :: y :: r else y :: insertBlock x r

/-- Blocks given the lowest addresses of their sizes in turn, beside blocks that stay: with none of these they are packed from address 0
(R101). -/
def repack (stay : List (Nat × Nat)) (l : List (Nat × Nat × Nat)) : List (Nat × Nat × Nat) :=
  match l with
  | [] => []
  | (g, b, n) :: r =>
    let at_ := (((List.range (storeSize / n)).map (fun i => i * n)).find? (fun a => blockFree stay a n)).getD b
    (g, at_, n) :: repack (stay ++ [(at_, n)]) r

/-- Whether a CTXSAVE of a gang has issued and not completed (R370). -/
def State.saveInProgress (s : State) (g : Nat) : Bool :=
  s.teams.any (fun p => p.2.deferred.any (fun k => match k.op with
    | .ctxsave g' _ => g'.toNat = g
    | _ => false))

/-- Whether a gang is being pre-empted: its teams are stopped, or a CTXSAVE of it is in progress (R101, R370). -/
def State.leaving (s : State) (g : Nat) : Bool := (s.teamsOf g).any (fun u => (s.teamAt u).stop) || s.saveInProgress g

/-- The shape of a gang. -/
def Gang.shape (x : Gang) : Shape := ⟨x.tw, x.vregs, x.nteams, 0, x.persistent, x.scratch⟩

/-- The layouts of a compaction of a core, the first moves first: the blocks of gangs that are not being pre-empted, largest first and equal ones in
ascending address, of which the first `k` go to their new places and the others stay (R101). -/
def State.compacted (s : State) (core k : Nat) : List ((Nat × Nat × Nat) × (Nat × Nat × Nat)) :=
  let of (g : Nat) : List (Nat × Nat × Nat) := (s.gangAt g).blocks.map (fun b => (g, b.1, b.2))
  let fixed := ((s.residents core).filter (fun g => s.leaving g)).flatMap of
  let sorted := (((s.residents core).filter (fun g => !s.leaving g)).flatMap of).foldl (fun l b => insertBlock b l) []
  let new := repack (fixed.map (fun b => (b.2.1, b.2.2))) sorted
  (sorted.zip new).mapIdx (fun i p => if i < k then p else (p.1, p.1))

/-- Whether the blocks of a layout lie apart. -/
def blocksApart (l : List (Nat × Nat)) : Bool :=
  match l with
  | [] => true
  | b :: r => blockFree r b.1 b.2 && blocksApart r

/-- The block sizes of the admissions and restores that wait for a core whose free store would hold them, but for its layout (R35, R101). -/
def State.waitingFor (s : State) (core : Nat) : List (List Nat) :=
  let used := s.blocksOn core
  let gang := s.hub.images.filterMap (fun i =>
    let g := s.gangAt i.gang
    if (i.byScheduler || i.accepted) && s.slotsOn core g.nteams 0 then some (g.shape.blocks (s.dispatchAt g.dispatch).rollback) else none)
  let first := s.hub.dispatches.filterMap (fun p =>
    match shapeOf p.2.shape with
    | some x => if p.2.valid && p.2.failed.isNone && decide (p.2.next < p.2.count) && s.slotsOn core x.nteams 0 then some (x.blocks p.2.rollback) else none
    | none => none)
  (gang ++ first).filter (fun l => blockBytes used + l.sum ≤ 983040 && (grantBlocks used l).isNone)

/-- The blocks of a core after a layout: those that move, those that stay, and those of gangs being pre-empted. -/
def State.layout (s : State) (core : Nat) (ms : List ((Nat × Nat × Nat) × (Nat × Nat × Nat))) : List (Nat × Nat) :=
  ms.map (fun m => (m.2.2.1, m.2.2.2)) ++ ((s.residents core).filter (fun g => s.leaving g)).flatMap (fun g => (s.gangAt g).blocks)

/-- The moves of a compaction: the fewest that make room for a waiting admission; none where no layout does, and the admission waits (R101). -/
def State.compaction (s : State) (core : Nat) : Option (List ((Nat × Nat × Nat) × (Nat × Nat × Nat))) :=
  let waits := s.waitingFor core
  ((List.range ((s.blocksOn core).length + 1)).map (fun k => s.compacted core k)).find? (fun ms =>
    let l := s.layout core ms
    blocksApart l && waits.any (fun w => (grantBlocks l w).isSome))

/-- BLOCK_COMPACTION: blocks of a core are moved as a waiting admission needs it; each gang's blocks keep their order, and the lines of the L1 in
their new places are evicted (R35, R100, R101). -/
def execBlockCompaction (core : Nat) (s : State) : Out :=
  match s.compaction core with
  | none => .next s
  | some ms =>
    match s.claimBlocks core (ms.map (fun m => (m.2.2.1, m.2.2.2))) with
    | .error (.wait r, s1) => .next (s1.request r)
    | .error (_, s1) => .next s1
    | .ok s1 => .next ((s1.residents core).foldl (fun (s : State) g => s.mapGang g (fun x => { x with
        blocks := x.blocks.map (fun b => match ms.find? (fun m => m.1 = (g, b.1, b.2)) with
          | some m => (m.2.2.1, b.2)
          | none => b) })) s1)

/-! ### Placement (R36, R37, R336) -/

/-- The fields of a placement key (R336). -/
def keyField (key : BitVec 32) (lo : Nat) : Nat := key.toNat / 2 ^ lo % 16

/-- The slices of a slice set: a mask of 0 means all of them (R336). -/
def slicesOf (mask : BitVec 96) : List Nat :=
  if mask = 0 then List.range 96 else (List.range 96).filter (fun i => mask.getLsbD i)

/-- The slice that a key associates with coordinates (R336). -/
def placedSlice (key : BitVec 32) (seed : DWord) (mask : BitVec 96) (x y z : Nat) : Nat :=
  let t : DWord := BitVec.ofNat 64 (x / 2 ^ keyField key 0) + BitVec.ofNat 64 (y / 2 ^ keyField key 4) * 0x9E3779B9#64
    + BitVec.ofNat 64 (z / 2 ^ keyField key 8) * 0x85EBCA6B#64
  let h : DWord := (t ^^^ seed) * 0xC2B2AE3D27D4EB4F#64
  let h' : DWord := h ^^^ (h >>> 29)
  (slicesOf mask).getD (h'.toNat % (slicesOf mask).length) 0

/-- The cores of R36 steps 4 and 5 for a slice: its neighbours, the one with fewer resident teams first, then the others. -/
def State.probes (s : State) (slice : Nat) : List Nat × List Nat :=
  let a := 2 * slice
  let b := a + 1
  let near := if (s.residentTeams b).length < (s.residentTeams a).length then [b, a] else [a, b]
  let d := dieOf a
  let others := (List.range 192).filter (fun c => c ≠ a && c ≠ b)
  (near, others.filter (fun c => dieOf c = d) ++ others.filter (fun c => dieOf c ≠ d))

/-- Whether a core holds gangs of a dispatch with the opposite intensity mark (R37). -/
def State.holdsOpposite (s : State) (core : Nat) (mark : BitVec 2) : Bool :=
  (mark = 1 || mark = 2) && (s.residents core).any (fun g => (s.dispatchAt (s.gangAt g).dispatch).mark = 3 - mark)

/-- The core and blocks that placement gives a gang: the neighbours of the key's slice where one has room, else the others, and among those
that may be taken one with gangs of the opposite mark (R36, R37). -/
def State.placement (s : State) (slice : Nat) (mark : BitVec 2) (room : Nat → Option (List (Nat × Nat))) :
    Option (Nat × List (Nat × Nat)) :=
  let p := s.probes slice
  let with_ (l : List Nat) : List (Nat × List (Nat × Nat)) := l.filterMap (fun c => (room c).map (fun b => (c, b)))
  let cands := if (with_ p.1).isEmpty then with_ p.2 else with_ p.1
  match cands.find? (fun c => s.holdsOpposite c.1 mark) with
  | some c => some c
  | none => cands.head?

/-- The slice for a gang of a dispatch at coordinates. -/
def State.sliceFor (s : State) (d : Dispatch) (x y z : Nat) : Nat :=
  let f := s.fnAt (s.fnOf d.ctx)
  placedSlice d.key (f.seeds.get 0 (keyField d.key 12)) (f.maskOf (keyField d.key 16)) x y z

/-! ### Admission (R24 to R26, R33, R34, R171, R332, R371, R374) -/

/-- An island changed, the cycles of a core's logic counted up to now under the old setting (R15). -/
def State.setIsland (s : State) (n : Nat) (f : Island → Island) : State :=
  let s1 := if n < 192 then s.mapCore n (fun k => { k with cyc := s.cycOf n, cycAt := s.cycles }) else s
  s1.mapPlatform (fun p => { p with islands := p.islands.set n (f (p.islands.get .none n)) })

/-- An island woken by work that arrives for it, and the fabric of its die with a core or slice (R16). -/
def State.wake (s : State) (n : Nat) : State :=
  let s1 := if (s.platform.islands.get .none n).gated && !s.platform.safe then s.setIsland n (fun i => { i with gated := false }) else s
  if n < 192 then s1.wakeIsland (508 + dieOf n)
  else if n < 384 then s1.wakeIsland (508 + dieOf (n - 192))
  else if n < 480 then s1.wakeIsland (508 + sliceDie (n - 384))
  else s1

/-- The islands of a core and of its matrix engine woken for a gang that is to be resident on it (R16, R17). -/
def State.wakeCore (s : State) (core : Nat) : State := (s.wake core).wake (192 + core)

/-- The pipe with the fewest of a list of bindings, the lowest on a tie (R34). -/
def emptiestPipe (pipes : List Nat) : Nat :=
  (List.range 4).foldl (fun best p =>
    if (pipes.filter (fun x => x = p)).length < (pipes.filter (fun x => x = best)).length then p else best) 0

/-- Pipes for teams in ascending TEAMID, beside the pipes already bound (R34). -/
def bindPipes (pipes : List Nat) (n : Nat) : List Nat :=
  match n with
  | 0 => []
  | k + 1 => emptiestPipe pipes :: bindPipes (pipes ++ [emptiestPipe pipes]) k

/-- The free team slots of a core, which its new teams take lowest first in ascending TEAMID: no rule says which slot a team takes (DESIGN CHOICE,
log 73). -/
def State.freeSlots (s : State) (core : Nat) : List Nat :=
  let held := (s.residentTeams core).map (fun u => (s.teamAt u).slot)
  (List.range 64).filter (fun i => !held.contains i)

/-- A gang's teams bound to pipes and team slots of a core. -/
def State.bindTeams (s : State) (g core : Nat) : State :=
  let pipes := bindPipes ((s.residentTeams core).map (fun u => (s.teamAt u).pipe)) (s.gangAt g).nteams
  let slots := s.freeSlots core
  (List.range (s.gangAt g).nteams).foldl (fun (s : State) i =>
    s.mapTeam (16 * g + i) (fun t => { t with pipe := pipes.getD i 0, slot := slots.getD i 0, stop := false })) s

/-- The pages of a mapping entry loaded into a gang's scratchpad (R171, R332). -/
def State.loadPages (s : State) (g ctx e : Nat) : State :=
  match s.mappedPages ctx e (s.gangAt g).scratch false with
  | .error _ => s
  | .ok (s1, ps) => ps.foldl (fun (s : State) p =>
      (s.atHome (p.1 / 128)).mapGang g (fun k => (k.store p.2.1 (s.mem.bytes p.1 p.2.2)).markPoison
        (((List.range p.2.2).filter (fun i => s.mem.poisoned (p.1 + i) 1)).map (fun i => p.2.1 + i)))) s1

/-- The mappings of a gang registered on its core and their pages loaded into its scratchpad (R171, R332). -/
def State.loadMappings (s : State) (g : Nat) : State :=
  let x := s.gangAt g
  let ctx := (s.dispatchAt x.dispatch).ctx
  (s.mappingsFor ctx x.dispatch x.glin).foldl (fun (s : State) e =>
    (s.mapCore x.core (fun c => { c with mappings := c.mappings ++ [(ctx, e, g)] })).loadPages g ctx e) s

/-- Why a gang's mapped pages must wait for the host before they are loaded: a line that the host holds modified, in a page or on the walk to it
(R171, R177, R215). -/
def State.mapsWait (s : State) (ctx dispid glin scratch : Nat) : Option Stop :=
  (s.mappingsFor ctx dispid glin).findSome? (fun e =>
    match s.mappedPages ctx e scratch false with
    | .error (x, _) => some x
    | .ok (_, ps) => (pageRuns ps).findSome? (fun r => s.hostBlocks r.1 false true))

/-- What a gang does to a core before it comes to it: its blocks are claimed from the L1, and its mapped pages can be read; else it waits (R100,
R169, R171). -/
def State.claimFor (s : State) (core ctx dispid glin scratch : Nat) (blocks : List (Nat × Nat)) : Res State :=
  match s.mapsWait ctx dispid glin scratch with
  | some e => .error (e, s)
  | none => s.claimBlocks core blocks

/-- A team as it starts: s1 is the kernel argument and every other register but s2 holds zero (R24, R238). -/
def startTeam (g i : Nat) (d : Dispatch) (tw : Nat) : Team :=
  { Team.none with
    gang := g
    teamid := i
    status := .ready
    regs := ({ TeamRegs.zero with pc := d.entry, em := laneMask tw }.setS 1 d.arg).setS 2 d.joinVA }

/-- Whether a gang is sampled by the replay auditor (R374). -/
def auditSampled (k glin dispid : Nat) : Bool :=
  k ≤ 16 && ((glin * 0x9E3779B9) % 2 ^ 32 ^^^ dispid) % 2 ^ k = 0

/-- The first shadow of a rollback gang, taken at its start (R371). -/
def State.firstShadow (s : State) (g : Nat) : State :=
  let s1 := (s.teamsOf g).foldl (fun (s : State) u => s.mapTeam u (fun t => { t with shadow := some t.regs, shadowH := false })) s
  s1.mapGang g (fun x => { x with shadow := some ⟨x.scratchpad, x.barriers, x.queues⟩ })

/-- A gang of a dispatch seated on its core with the next identifier, and its teams as they start, bound to pipes and team slots (R24, R34). -/
def State.seatGang (s : State) (d : Dispatch) (x : Gang) : State :=
  let g := s.hub.nextGang
  let s0 := ((s.wakeCore x.core).mapHub (fun h => { h with nextGang := g + 1 })).mapGang g (fun _ => { x with state := .saved })
  let s1 := (List.range x.nteams).foldl (fun (s : State) i => s.setTeamAt (16 * g + i) (startTeam g i d x.tw)) s0
  (s1.bindTeams g x.core).mapGang g (fun _ => x)

/-- b0 of a gang as it starts (R24, R339). -/
def startBarriers (g nteams : Nat) : Map Barrier := [(0, ⟨true, g, nteams, 0, 0, 0, 0, true, (0, 0)⟩)]

/-- A gang started on a core whose blocks it has claimed. Its start is an acquire: the core's L1 gives up its clean words of the context (R24 to
R26, R33, R217, R268, R271, R350). -/
def State.startGang (s : State) (dispid glin core : Nat) (shape : Shape) (blocks : List (Nat × Nat)) : State :=
  let d := s.dispatchAt dispid
  let g := s.hub.nextGang
  let x : Gang := { Gang.none with
    state := .resident
    dispatch := dispid
    glin := glin
    x := glin % d.dimX
    y := glin / d.dimX % d.dimY
    z := glin / d.dimX / d.dimY
    core := core
    nteams := shape.nteams
    tw := shape.tw
    vregs := shape.vregs
    scratch := shape.scratch
    persistent := shape.persistent
    blocks := blocks
    barriers := startBarriers g shape.nteams
    sampled := d.auditable && auditSampled (s.queueAt d.queue).audit.toNat glin dispid }
  let s3 := (((s.acquire core d.ctx).seatGang d x).loadMappings g).mapDispatch dispid (fun d => { d with next := d.next + 1, live := d.live + 1 })
  if d.rollback then s3.firstShadow g else s3

/-- Whether a saved gang that runs again by itself, or that CTXRST has accepted, goes ahead of the unstarted gangs of its dispatch (R40,
R370). -/
def State.restoreWaits (s : State) (dispid : Nat) : Bool :=
  (s.dispatchAt dispid).parallel &&
    s.hub.images.any (fun i => (i.byScheduler || i.accepted) && (s.gangAt i.gang).dispatch = dispid)

/-- GANG_ADMISSION: the next gang of a dispatch in ascending linear index, where a core has room for the whole of it (R33, R40). -/
def execGangAdmission (dispatch : Nat) (s : State) : Out :=
  let d := s.dispatchAt dispatch
  match shapeOf d.shape with
  | none => .next s
  | some shape =>
    if !d.valid || d.failed.isSome || d.count ≤ d.next || s.restoreWaits dispatch then .next s
    else
      let mapped := (s.mappingsFor d.ctx dispatch d.next).length
      let slice := s.sliceFor d (d.next % d.dimX) (d.next / d.dimX % d.dimY) (d.next / d.dimX / d.dimY)
      match s.placement slice d.mark (fun c => s.roomOn c shape d.rollback mapped) with
      | none => .next s
      | some (core, blocks) =>
        match s.claimFor core d.ctx dispatch d.next shape.scratch blocks with
        | .error (.wait r, s1) => .next (s1.request r)
        | .error (_, s1) => .next s1
        | .ok s1 => .next (s1.startGang dispatch d.next core shape blocks)

/-! ### Dispatches (R27, R28, R33, R266 to R271) -/

/-- The next DISPID, ascending and never held twice (R337). -/
def State.freshDisp (s : State) : Nat :=
  let held := (s.hub.dispatches.filter (fun p => p.2.valid)).map (fun p => p.1)
  (((List.range (held.length + 1)).map (fun i => (s.hub.nextDisp + i) % 2 ^ 32)).find? (fun n => !held.contains n)).getD s.hub.nextDisp

/-- A dispatch entered in the table under a DISPID. -/
def State.enterDispatch (s : State) (dispid : Nat) (d : Dispatch) : State :=
  (s.mapDispatch dispid (fun _ => d)).mapHub (fun h => { h with nextDisp := (dispid + 1) % 2 ^ 32 })

/-- Whether the dimensions of a DISPATCH break R27. -/
def dimsMalformed (x y z : Nat) : Bool := x = 0 || y = 0 || z = 0 || 2 ^ 32 < x * y * z

/-- A DISPATCH refused: it takes a DISPID and no entry, and its record and its signal tell of it (R27, R33, R266, R269, R336). -/
def State.refusePacket (s : State) (q : Nat) (bs : List Byte) (c : Cause) (addr : Nat) : Out :=
  let id := s.freshDisp
  s.takePacket q bs (some id) (fun s0 =>
    let s1 := s0.mapHub (fun h => { h with nextDisp := (id + 1) % 2 ^ 32 })
    ((s1.addRecord (s1.cpRecord q 4 id c (if c = .admissionRefused then 0 else 0x01) (BitVec.ofNat 64 addr)) false).1).raiseSignal q 0
      (packetDword bs 48) (some .admissionRefused))

/-- A DISPATCH whose descriptor is read and sound: its entry is taken and admission begins. -/
def State.beginDispatch (s : State) (q slot : Nat) (bs desc : List Byte) (shape : Shape) : Out :=
  let x := s.queueAt q
  let flags := packetField bs 36 4
  let id := s.freshDisp
  s.takePacket q bs (some id) (fun s1 => .ok ((s1.enterDispatch id { Dispatch.none with
    valid := true
    queue := q
    ctx := x.ctx
    packet := x.readIdx
    signal := packetDword bs 48
    entry := packetDword desc 0
    shape := packetDword desc 8
    arg := packetDword bs 16
    dimX := packetField bs 24 4
    dimY := packetField bs 28 4
    dimZ := packetField bs 32 4
    key := BitVec.ofNat 32 (packetField bs 40 4)
    parallel := shape.cls = 1
    fetchable := flags % 2 = 1
    rollback := flags / 2 % 2 = 1
    auditable := flags / 4 % 2 = 1
    slot := slot }).mapQueue q (fun y => { y with taken := y.taken.set x.readIdx (.dispatch id) })))

/-- DISPATCH_PACKET (R269). A kernel descriptor whose VA is not a multiple of 8 is refused with 0x22 and that VA (DESIGN CHOICE, log 100). -/
def execDispatchPacket (queue : Nat) (s : State) : Out :=
  s.packetTurn queue (some 1) (fun s1 bs =>
    let x := s1.queueAt queue
    let desc := packetField bs 8 8
    match x.torn, s1.freeEntry queue with
    | some c, _ => s1.takePacket queue bs none (fun s2 => s2.raiseSignal queue 0 (packetDword bs 48) (some c))
    | none, none => .next s
    | none, some slot =>
      if dimsMalformed (packetField bs 24 4) (packetField bs 28 4) (packetField bs 32 4) || packetField bs 40 4 / 2 ^ 20 ≠ 0
        || desc % 8 ≠ 0 then s1.refusePacket queue bs .admissionRefused desc
      else
        match s1.cpRead x.ctx desc 16 with
        | .error (.trap c va _ _, _) => s1.refusePacket queue bs c va.toNat
        | .error (.wait r, _) => .next (s.request r)
        | .error _ => .next (s.tearDown queue .unattributable)
        | .ok (s2, ds) =>
          match kernelShape (packetDword ds 8) with
          | none => s2.refusePacket queue bs .admissionRefused desc
          | some shape =>
            if packetField ds 0 8 % 8 ≠ 0 || !shape.fits (packetField bs 36 4 / 2 % 2 = 1) then
              s2.refusePacket queue bs .admissionRefused desc
            else s2.beginDispatch queue slot bs ds shape)

/-- CONTINUATION_RELEASE: the oldest continuation of a queue runs as a dispatch of one gang in class W; one that does not fit is refused, and
one of a torn queue has no effect (R28, R33, R271, R376). -/
def execContinuationRelease (queue : Nat) (s : State) : Out :=
  let x := s.queueAt queue
  match x.conts with
  | [] => .next s
  | r :: rest =>
    if !x.valid || x.suspended || s.platform.safe || s.outranked queue then .next s
    else
      let taken := (s.mapQueue queue (fun q => { q with conts := rest })).mapHub (fun h => { h with turns := h.turns.set (cpOf queue) queue })
      let ended (c : Cause) (s : State) : State := s.mapDispatch r.parent (fun d => { d with
        conts := d.conts - 1, contFailed := some (d.contFailed.getD c) })
      match x.torn, shapeOf r.shape, s.freeEntry queue with
      | some c, _, _ => .next (ended c taken)
      | none, none, _ => .next (ended .admissionRefused taken)
      | none, some _, none => .next s
      | none, some shape, some slot =>
        if !shape.fits false then
          .next (ended .admissionRefused (taken.addRecord (taken.cpRecord queue 4 0 .admissionRefused 0 r.code) false).1)
        else
          .next (taken.enterDispatch s.freshDisp { Dispatch.none with
            valid := true
            queue := queue
            ctx := x.ctx
            packet := r.packet
            entry := r.code
            shape := r.shape
            arg := r.frame
            joinVA := r.join
            dimX := 1
            dimY := 1
            dimZ := 1
            cont := true
            parent := r.parent
            slot := slot })

/-! ### WAIT, SIGNAL, NOP and malformed packets (R266, R267) -/

/-- WAIT_PACKET: the packet is taken and blocks its queue; in a torn queue it completes at once as failed. -/
def execWaitPacket (queue : Nat) (s : State) : Out :=
  s.packetTurn queue (some 2) (fun s1 bs =>
    match (s1.queueAt queue).torn with
    | some c => s1.takePacket queue bs none (fun s2 => s2.raiseSignal queue 0 (packetDword bs 48) (some c))
    | none => s1.takePacket queue bs none (fun s2 => .ok (s2.mapQueue queue (fun q => { q with
        wait := some ⟨packetDword bs 8, BitVec.ofNat 32 (packetField bs 16 4), packetDword bs 48, 0, false⟩ }))))

/-- A WAIT completed: its own signal is raised and its queue goes on. -/
def State.endWaitPacket (s : State) (q : Nat) (w : WaitPacket) (err : Option Cause) : State :=
  let s1 := (s.mapQueue q (fun x => { x with wait := none })).mapHub (fun h => h.release (fun y => y ≠ .waitPacket q))
  match s1.raiseSignal q 0 w.signal err with
  | .ok s2 => s2
  | .error (.wait r, _) => s.request r
  | .error _ => s

/-- The watchdog limit of a queue in ticks; 0 means 2^31 (R331, R353). -/
def HostQueue.limit (q : HostQueue) : Nat := if q.watchdog = 0 then 2 ^ 31 else q.watchdog.toNat

/-- WAIT_PACKET_COMPLETE: the awaited signal is read, while the watchdog has not passed its limit; a read that faults holds the WAIT. -/
def execWaitPacketComplete (queue : Nat) (s : State) : Out :=
  let x := s.queueAt queue
  match x.wait with
  | none => .next s
  | some w =>
    let hold (c : Cause) (acc : Byte) : Out :=
      .next ((s.mapQueue queue (fun y => { y with wait := some { w with held := true } })).holdFault
        (s.cpRecord queue 3 0 c acc w.awaited) (faultPage x.ctx c w.awaited) (.waitPacket queue)).1
    if w.held || x.limit < w.ticks then .next s
    else if w.awaited.toNat % 8 ≠ 0 then hold .misalignment 0x01
    else
      match s.cpRead x.ctx w.awaited.toNat 8 with
      | .error (.trap c _ acc _, _) => hold c acc
      | .error (.wait r, _) => .next (s.request r)
      | .error _ => .next (s.tearDown queue .unattributable)
      | .ok (s1, bs) =>
        let v := leNat bs
        let err : Bool := v / 2 ^ 63 = 1
        if err || w.value.toNat ≤ v % 2 ^ 32 then .next (s1.endWaitPacket queue w (if err then some .watchdogExpiry else none))
        else .next s1

/-- WAIT_PACKET_TIMEOUT: the watchdog of a WAIT, held or not, has passed its limit before this tick; in the tick of expiry the signal is still read
(R50, R267). -/
def execWaitPacketTimeout (queue : Nat) (s : State) : Out :=
  let x := s.queueAt queue
  match x.wait with
  | some w => if x.limit < w.ticks then .next (s.endWaitPacket queue w (some .watchdogExpiry)) else .next s
  | none => .next s

/-- The user interrupt of a SIGNAL with POST: SIGP in every team of a dispatch of the same function (R106, R267). -/
def State.post (s : State) (q target : Nat) : State :=
  let d := s.dispatchAt target
  if d.valid && s.fnOf d.ctx = s.fnOf (s.queueAt q).ctx then
    let hit (t : Team) : Bool :=
      let g := s.gangAt t.gang
      g.dispatch = target && (g.state = .resident || g.state = .saved)
    { s with teams := s.teams.mapValues (fun _ t => if hit t then t.pend s.cycles 0x100 else t) }
  else s

/-- A packet's entry among those taken and not complete removed. -/
def State.packetDone (s : State) (q i : Nat) : State := s.mapQueue q (fun x => { x with taken := x.taken.erase i })

/-- SIGNAL_PACKET: the oldest packet of the queue, where it is a SIGNAL, raises its signal and posts; else the next packet is taken. -/
def execSignalPacket (queue : Nat) (s : State) : Out :=
  match (s.queueAt queue).taken with
  | (i, .signal va target) :: _ =>
    match (s.packetDone queue i).raiseSignal queue 0 va none with
    | .ok s1 => .next (match target with | some t => s1.post queue t | none => s1)
    | .error (.wait r, _) => .next (s.request r)
    | .error _ => .next s
  | _ =>
    s.packetTurn queue (some 3) (fun s1 bs =>
      let i := (s1.queueAt queue).readIdx
      let target := if packetField bs 0 8 / 4 % 2 = 1 then some (packetField bs 40 4) else none
      match (s1.queueAt queue).torn with
      | some c => s1.takePacket queue bs none (fun s2 => s2.raiseSignal queue 0 (packetDword bs 8) (some c))
      | none => s1.takePacket queue bs none (fun s2 => .ok (s2.mapQueue queue (fun q => { q with
          taken := q.taken.set i (.signal (packetDword bs 8) target) }))))

/-- NOP_PACKET: the oldest packet of the queue, where it is a NOP, raises its signal; else the next packet is taken. -/
def execNopPacket (queue : Nat) (s : State) : Out :=
  match (s.queueAt queue).taken with
  | (i, .nop va) :: _ =>
    match (s.packetDone queue i).raiseSignal queue 0 va none with
    | .ok s1 => .next s1
    | .error (.wait r, _) => .next (s.request r)
    | .error _ => .next s
  | _ =>
    s.packetTurn queue (some 0) (fun s1 bs =>
      let i := (s1.queueAt queue).readIdx
      match (s1.queueAt queue).torn with
      | some c => s1.takePacket queue bs none (fun s2 => s2.raiseSignal queue 0 (packetDword bs 48) (some c))
      | none => s1.takePacket queue bs none (fun s2 => .ok (s2.mapQueue queue (fun q => { q with
          taken := q.taken.set i (.nop (packetDword bs 48)) }))))

/-- MALFORMED_PACKET: a record with 0x01 and the slot's address, and the packet's signal raised with 0x01 (R266); on a queue that is torn down it
completes without effect, with the teardown's cause (R376). -/
def execMalformedPacket (queue : Nat) (s : State) : Out :=
  s.packetTurn queue none (fun s1 bs =>
    let slot := (s1.queueAt queue).slotVA
    let va := if packetField bs 0 8 / 256 % 256 = 3 then packetDword bs 8 else packetDword bs 48
    match (s1.queueAt queue).torn with
    | some c => s1.takePacket queue bs none (fun s2 => s2.raiseSignal queue 0 va (some c))
    | none => s1.takePacket queue bs none (fun s2 =>
      ((s2.addRecord (s2.cpRecord queue 3 0 .illegalInstruction 0 (BitVec.ofNat 64 slot)) false).1).raiseSignal queue 0 va
        (some .illegalInstruction)))

/-! ### Retirement and completion (R46, R217, R218, R267, R272, R354) -/

/-- Whether the network engine still holds a command of a gang (R46). -/
def State.netPending (s : State) (g : Nat) : Bool :=
  s.net.armed.any (fun c => c.gang = g)
    || s.net.conns.any (fun p => p.2.sends.any (fun x => x.cmd.gang = g) || p.2.waiting.any (fun c => c.gang = g)
      || p.2.revocations.any (fun r => r.cmd.gang = g))

/-- Whether a resident gang may retire: every team has exited and every command that it issued has completed (R46). -/
def State.mayRetire (s : State) (g : Nat) : Bool :=
  let x := s.gangAt g
  x.state = .resident && !x.replay && (s.teamsOf g).all (fun u => (s.teamAt u).status = .exited) && x.fetches.isEmpty
    && !s.cores.any (fun p => p.2.cmds.any (fun c => c.gang = g) || p.2.netq.any (fun c => c.gang = g)) && !s.netPending g

/-- Every index that a persistent gang still holds reported (R272). -/
def State.reportAll (s : State) (g : Nat) : State :=
  (s.gangAt g).withdrawn.foldl (fun (s : State) w => s.mapDispatch w.1 (fun d => { d with
    unreported := d.unreported.filter (fun k => !w.2.contains k) })) (s.mapGang g (fun x => { x with withdrawn := [] }))

/-- A dispatch with one gang of it retired: the figures a and m of the first 64 are added to its counters, and after the 64th it is compute-bound
where a ≥ 8·m, else memory-bound (R354). -/
def Dispatch.retire (x : Dispatch) (g : Gang) : Dispatch :=
  let x1 := { x with live := x.live - 1, retired := x.retired + 1 }
  if x.cont || 64 ≤ x.retired then x1
  else
    let x2 := { x1 with work := x.work + BitVec.ofNat 64 g.work, lines := x.lines + BitVec.ofNat 64 g.lines }
    if x2.retired = 64 then { x2 with mark := if 8 * x2.lines.toNat ≤ x2.work.toNat then 1 else 2 } else x2

/-- GANG_RETIREMENT, once its mapped scratchpad is written back (R46, R172, R272, R332, R357, R375). -/
def execGangRetirement (gang : Nat) (s : State) : Out :=
  if !s.mayRetire gang then .next s
  else
    let x := s.gangAt gang
    match s.unmapGang gang with
    | .error (.wait r, _) => .next (s.request r)
    | .error _ => .next s
    | .ok s0 =>
      let s1 := (s0.mapCore x.core (fun k => k.forget gang)).reportAll gang
      let s2 := s1.mapGang gang (fun k => { k with state := .retired, blocks := [], barriers := [], queues := [], shadow := none })
      let s3 := s2.mapDispatch x.dispatch (fun d => d.retire x)
      .next (if x.sampled then s3.mapDispatch x.dispatch (fun d => { d with audits := d.audits ++ [x.glin] }) else s3)

/-- The first dirty line of a context in an L1, with its core. -/
def State.dirtyLine (s : State) (ctx : Nat) : Option (Nat × L1Line) :=
  s.cores.findSome? (fun p => (p.2.l1.find? (fun l => l.ctx = ctx && l.dirty ≠ 0#32)).map (fun l => (p.1, l)))

/-- The dirty lines of a dispatch's context written back, at most `fuel` of them, up to one that a fault stops. A word of a window page is
discarded with a record, and the signal carries that cause (R217, R218). -/
def State.flushContext (s : State) (d fuel : Nat) : State × Option (Nat × L1Line × Stop) :=
  match fuel with
  | 0 => (s, none)
  | f + 1 =>
    let x := s.dispatchAt d
    match s.dirtyLine x.ctx with
    | none => (s, none)
    | some (core, l) =>
      match s.writeBackLine core l 0x12 with
      | .ok s1 => s1.flushContext d f
      | .error (.trap .windowKind va acc _, s0) =>
        let s1 := s0.mapCore core (fun c => c.mapLine l.line (fun k => { k.drop k.dirty with held := false }))
        ((s1.addRecord (s1.cpRecord x.queue 3 d .windowKind acc va) false).1.mapDispatch d
          (fun y => { y with failed := some .windowKind })).flushContext d f
      | .error (e, s1) => (s1, some (core, l, e))

/-- Whether stores or engine writes of a dispatch's gangs are not yet performed: commands, an atomic that an ended team is still part-way in, writes
to apply windows, and the write-back of a mapped scratchpad (R45, R172, R217). -/
def State.writesPending (s : State) (d : Nat) : Bool :=
  s.cores.any (fun p => p.2.cmds.any (fun x => (s.gangAt x.gang).dispatch = d && !x.isRelease)
      || p.2.mappings.any (fun m => (s.gangAt m.2.2).dispatch = d))
    || s.teams.any (fun p => (s.gangAt p.2.gang).dispatch = d && (match p.2.status with | .atomicOp _ => true | _ => false))
    || s.slices.any (fun p => p.2.writes.any (fun w => match w.writer with
      | .team u => (s.gangAt (u / 16)).dispatch = d
      | _ => false))

/-- Whether every gang of a dispatch has retired or the dispatch has failed (R46, R267, R272, R375). -/
def Dispatch.finished (x : Dispatch) : Bool :=
  x.valid && !x.completing &&
    (x.failed.isSome || (x.count ≤ x.next && x.live = 0 && x.unreported.isEmpty && x.audits.isEmpty && x.conts = 0))

/-- The end of a dispatch's entry once its signal is raised: its packet is complete, and a continuation is counted off at its parent. -/
def State.freeDispatch (s : State) (d : Nat) : State :=
  let x := s.dispatchAt d
  let err : Option Cause := match x.failed with | some c => some c | none => x.contFailed
  let s1 := s.mapDispatch d (fun y => { y with valid := false })
  if x.cont then
    s1.mapDispatch x.parent (fun y => { y with
      conts := y.conts - 1
      contFailed := match y.contFailed with | some c => some c | none => err })
  else s1.packetDone x.queue x.packet

/-- DISPATCH_COMPLETION: stores are performed at sys scope, and the signal is raised. A word held under R218 holds the completion until
RESUME. -/
def execDispatchCompletion (dispatch : Nat) (s : State) : Out :=
  let x := s.dispatchAt dispatch
  if !x.finished || s.writesPending dispatch then .next s
  else
    let lines := (s.cores.map (fun p => p.2.l1.length)).sum
    match s.flushContext dispatch (lines + 1) with
    | (s1, some (core, l, .trap c va acc _)) =>
      .next (((s1.holdLine core l.line).mapDispatch dispatch (fun y => { y with completing := true })).holdFault
        (s1.cpRecord x.queue 3 dispatch c acc va) (faultPage x.ctx c va) (.completion dispatch)).1
    | (s1, some (_, _, .wait r)) => .next (s1.request r)
    | (s1, some _) => .next s1
    | (s1, none) =>
      let y := s1.dispatchAt dispatch
      let err : Option Cause := match y.failed with | some c => some c | none => y.contFailed
      match s1.raiseSignal x.queue dispatch x.signal err with
      | .ok s2 => .next (s2.freeDispatch dispatch)
      | .error (.wait r, _) => .next (s1.request r)
      | .error _ => .next s1

/-- The held words of a context discarded in every L1, as RESUME.kill of a completion asks (R218). -/
def State.discardHeld (s : State) (ctx : Nat) : State :=
  { s with cores := s.cores.mapValues (fun _ c => { c with
      l1 := (c.l1.map (fun l => if l.ctx = ctx && l.held then { l.drop l.dirty with held := false } else l)).filter (fun l => l.valid ≠ 0#32) }) }

/-! ### FETCHW (R29, R272) -/

/-- FETCHW_MAILBOX_WRITE: the oldest request of a gang is answered with the unplaced gang of lowest index, or with DONE; the ready word is
written last. -/
def execFetchwMailboxWrite (gang : Nat) (s : State) : Out :=
  let x := s.gangAt gang
  match x.fetches with
  | [] => .next s
  | f :: rest =>
    let d := s.dispatchAt f.dispatch
    let s1 := s.mapGang gang (fun k => { k with fetches := rest })
    if d.valid && d.failed.isNone && d.next < d.count then
      let i := d.next
      let s2 := s1.mapDispatch f.dispatch (fun y => { y with next := i + 1, unreported := y.unreported ++ [i] })
      .next ((s2.mapGang gang (fun k => { k with withdrawn := k.withdrawn.set f.dispatch (i :: k.withdrawn.get [] f.dispatch) })).storeGang gang f.mailbox
        (leBytes 4 (i % d.dimX) ++ leBytes 4 (i / d.dimX % d.dimY) ++ leBytes 4 (i / d.dimX / d.dimY) ++ leBytes 4 1))
    else .next (s1.storeGang gang (f.mailbox + 12) (leBytes 4 3))

/-! ### Fault queues (R273) -/

/-- The 64 bytes of a record in the ring, V set (R273). -/
def FaultRecord.bytes (r : FaultRecord) : List Byte :=
  leBytes 8 (r.id % 2 ^ 32 * 2 ^ 32 + r.access.toNat * 2 ^ 24 + r.source.toNat * 2 ^ 16 + r.cause.code.toNat * 256 + 1)
    ++ leBytes 8 r.address.toNat ++ leBytes 8 r.iaddr.toNat ++ leBytes 4 r.dispid ++ leBytes 4 r.glin
    ++ leBytes 4 (r.core * 2 ^ 24 + r.teamid * 2 ^ 16 + r.queue) ++ List.replicate 28 0

/-- The context by which a function's fault ring is translated: its lowest valid privileged one (DESIGN CHOICE, log 31). -/
def State.ringContext (s : State) (f : Nat) : Option Nat :=
  (s.hub.ctxs.find? (fun p => p.2.valid && p.2.priv && p.2.vfid = f)).map (fun p => p.1)

/-- A record written to a function's fault ring signalled: source 1 + f of the cluster's interrupt controller, and MSI-X vector 0 of the function
(R390). -/
def State.signalRecord (s : State) (f : Nat) : State :=
  let s1 := s.raise (1 + f)
  { s1 with port := { s1.port with msix := s1.port.msix ++ [f] } }

/-- FAULT_RECORD_DELIVERY: the oldest waiting record of a function is written into the next slot of its ring, where that slot's V bit is
clear, bytes 8 to 63 first and the header last. A record with flog 11 to 15, which R273 does not give, has a ring of 2^(flog + 6) records (DESIGN
CHOICE, log 103). -/
def execFaultRecordDelivery (function : Nat) (s : State) : Out :=
  let f := s.fnAt function
  match s.ringContext function, s.hub.records.findIdx? (fun r => r.fn = function) with
  | some ctx, some i =>
    let va := (f.fring &&& 0x1FFFFFFFFFFF000#64).toNat + 64 * f.slot
    match s.cpRead ctx va 8 with
    | .error (.wait r, _) => .next (s.request r)
    | .error _ => .next s
    | .ok (s1, hb) =>
      if leNat hb % 2 = 1 then .next s
      else
        let bs := ((s.hub.records[i]?).map (fun r => r.bytes)).getD []
        match s1.cpWrite ctx (va + 8) (bs.drop 8) with
        | .error (.wait r, _) => .next (s.request r)
        | .error _ => .next s
        | .ok s2 =>
          match s2.cpWrite ctx va (bs.take 8) with
          | .error (.wait r, _) => .next (s.request r)
          | .error _ => .next s
          | .ok s3 => .next (((s3.mapHub (fun h => { h with records := h.records.eraseIdx i })).mapFn function
              (fun g => { g with slot := (g.slot + 1) % 2 ^ (g.flog.toNat + 6) })).signalRecord function)
  | _, _ => .next s

/-! ### The replay auditor and unattributable errors (R375, R376) -/

/-- The gang of a dispatch with a linear index that has retired. -/
def State.retiredGang (s : State) (d glin : Nat) : Option Gang :=
  (s.gangs.find? (fun p => p.2.dispatch = d && p.2.glin = glin && p.2.state = .retired)).map (fun p => p.2)

/-- The replay of a gang that runs, by its identifier. -/
def State.replayOf (s : State) (d glin : Nat) : Option Nat :=
  (s.gangs.find? (fun p => p.2.dispatch = d && p.2.glin = glin && p.2.replay && p.2.state = .resident)).map (fun p => p.1)

/-- The replay of a retired gang started on a core whose blocks it has claimed: from the gang's start, with its coordinates and kernel argument, its
mapped pages loaded and no mapping registered, so that nothing is written back (R375). -/
def State.startReplay (s : State) (x : Gang) (core : Nat) (blocks : List (Nat × Nat)) : State :=
  let d := s.dispatchAt x.dispatch
  let g := s.hub.nextGang
  let y : Gang := { Gang.none with
    state := .resident, dispatch := x.dispatch, glin := x.glin, x := x.x, y := x.y, z := x.z, core := core, nteams := x.nteams, tw := x.tw
    vregs := x.vregs, scratch := x.scratch, persistent := x.persistent, blocks := blocks, barriers := startBarriers g x.nteams
    sampled := true, replay := true }
  (s.mappingsFor d.ctx x.dispatch x.glin).foldl (fun (s : State) e => s.loadPages g d.ctx e) ((s.acquire core d.ctx).seatGang d y)

/-- A replay at its end, its writes discarded. -/
def State.discardReplay (s : State) (g : Nat) : State :=
  let core := (s.gangAt g).core
  let s1 := s.mapCore core (fun k => { k.forget g with cmds := k.cmds.filter (fun c => c.gang ≠ g) })
  let s2 := (s1.teamsOf g).foldl (fun (s : State) u => s.mapTeam u (fun t => { t with
    status := .exited, windows := [], frozen := [], deferred := [], held := [], async := [], yieldTo := [], stop := false
    stalled := none, stuck := none })) s1
  s2.mapGang g (fun k => { k with state := .ended, blocks := [], barriers := [], queues := [], written := [] })

/-- A sampled gang audited or skipped. -/
def State.audit_ (s : State) (d glin : Nat) : State := s.mapDispatch d (fun y => { y with audits := y.audits.erase glin })

/-- The audit of a replay's gang abandoned: it is counted as skipped, and the replay ends (R375). -/
def State.abandonReplay (s : State) (g : Nat) : State :=
  let x := s.gangAt g
  ((s.discardReplay g).audit_ x.dispatch x.glin).logEvent (.auditSkipped x.dispatch x.glin)

/-- Whether a replay has ended: its teams have exited and its commands have completed. -/
def State.replayDone (s : State) (g : Nat) : Bool :=
  (s.teamsOf g).all (fun u => (s.teamAt u).status = .exited) && !s.cores.any (fun p => p.2.cmds.any (fun c => c.gang = g))

/-- Two cores marked suspect (R375). -/
def State.suspects (s : State) (a b : Nat) : State :=
  (s.mapCore a (fun c => { c with suspect := true })).mapCore b (fun c => { c with suspect := true })

/-- REPLAY_AUDIT: a sampled gang that has retired begins its replay on a core of another die that has room; once the replay has ended, the signatures
are compared. A mismatch tears the queue down and marks both cores suspect. -/
def execReplayAudit (dispatch glin core : Nat) (s : State) : Out :=
  let d := s.dispatchAt dispatch
  if !d.valid || !d.audits.contains glin then .next s
  else
    match s.retiredGang dispatch glin, s.replayOf dispatch glin with
    | none, _ => .next s
    | some x, none =>
      if dieOf core = dieOf x.core || 192 ≤ core then .next s
      else
        match s.roomOn core x.shape false 0 with
        | none => .next s
        | some blocks =>
          match s.claimFor core d.ctx dispatch glin x.scratch blocks with
          | .error (.wait r, s1) => .next (s1.request r)
          | .error (_, s1) => .next s1
          | .ok s1 => .next (s1.startReplay x core blocks)
    | some x, some g =>
      let y := s.gangAt g
      if y.core ≠ core || !s.replayDone g then .next s
      else
        let s1 := (s.discardReplay g).audit_ dispatch glin
        .next (if y.audit = x.audit then s1 else (s1.tearDown d.queue .auditMismatch).suspects core x.core)

/-- UNATTRIBUTABLE_ERROR: an error that names a queue tears it down, and one that names none is recorded for the physical function. -/
def execUnattributableError (scope : ErrorScope) (s : State) : Out :=
  match scope with
  | .queue q => .next (s.tearDown q .unattributable)
  | .package => .next (s.addRecord ⟨0, 0, 0, 3, .unattributable, 0, 0, 0, 0, 0, 0, 0⟩ false).1

end Sys2Proof.Machine
end

