-- ==== Sys2Proof/Machine/Switching.lean ====
section
/-! DEFINITION. Boundaries, pre-emption, the context save area, restoration and RESUME (R40, R44, R51, R71, R106, R198, R218, R265, R267, R284,
R293, R318, R348, R357, R359 to R370). -/
namespace Sys2Proof.Machine

/-! ### Causes and interrupts at a boundary (R359, R360, R363) -/

/-- A thing held under the fault id by which a team is parked. -/
def State.addHold (s : State) (u : Nat) (h : Held) : State :=
  match (s.teamAt u).status with
  | .parked fn id _ _ => s.mapHub (fun k => { k with held := k.held.map (fun x =>
      if x.fn = fn && x.id = id then { x with holds := x.holds ++ [h] } else x) })
  | _ => s

/-- A write-back fault of a pre-emption taken by the first team at its boundary after the restore (R368). -/
def State.takeHeldFault (s : State) (u : Nat) (c : Cause) (va : DWord) : State :=
  let pc := (s.teamAt u).regs.pc
  let s1 := s.mapGang (s.teamAt u).gang (fun g => { g with heldFault := none })
  if c = .pageNotPresent || c = .writeProtection then s1.park u c .goOn pc va 0x12 va (.team u) else s1.endTeam u c pc va 0x12 va

/-- A cause of an engine command taken by its team (R175, R283, R316, R359, R373). -/
def State.takeCause (s : State) (u : Nat) (a : AsyncCause) : State :=
  match a.cause, a.holds with
  | .errorConsumed, _ => (s.dropStopped a.order).consume u a.pc a.value 0x21
  | .emulation, _ => s.park u .emulation .emulation a.pc a.value a.access a.value (.team u)
  | c, some h => (s.park u c .goOn a.pc a.value a.access a.value (.team u)).addHold u h
  | c, none => (s.dropStopped a.order).endTeam u c a.pc a.value a.access a.value

/-- The causes of commands that a gang's teams have not taken as it rolls back: they are held, or roll it back again, or end it, at once (R373). -/
def State.rollCauses (s : State) (g : Nat) : State :=
  (s.teamsOf g).foldl (fun (s : State) u => (s.teamAt u).async.foldl (fun (s : State) a =>
    match a.cause, a.holds with
    | .emulation, _ => s
    | .errorConsumed, _ => (s.dropStopped a.order).consume u a.pc a.value 0x21
    | c, some h => (s.holdFault (s.teamRecord u c a.access a.value a.pc) (faultPage (s.ctxOf u) c a.value) h).1
    | c, none => (s.dropStopped a.order).endTeam u c a.pc a.value a.access a.value) (s.mapTeam u (fun t => { t with async := [] }))) s

/-- The rollbacks that waited for commands that had started carried on (R373). -/
def State.finishRolls (s : State) : State :=
  s.gangs.foldl (fun (s : State) p => if p.2.rolling then (s.rollCauses p.1).finishRoll p.1 else s) s

/-- ENGINE_FAULT_CHARGE: the first cause charged to a team taken at its boundary; a wait ends there (R359, R360). -/
def execEngineFaultCharge (team : Nat) (s : State) : Out :=
  let t := s.teamAt team
  let g := s.gangAt t.gang
  if !t.atBoundary || t.stop || g.state ≠ .resident then .next s
  else
    match g.heldFault, t.async with
    | some (c, va), _ => .next ((s.mapTeam team Team.endWait).takeHeldFault team c va)
    | none, a :: rest => .next ((s.mapTeam team (fun t => { t.endWait with async := rest })).takeCause team a)
    | none, [] => .next s

/-- The user interrupt that a team's boundary delivers: none before a cause charged to it is taken (R360, R363). -/
def State.interruptOf (s : State) (u : Nat) : Option (Byte × BitVec 11) :=
  let t := s.teamAt u
  if !t.async.isEmpty || (s.gangAt t.gang).heldFault.isSome then none else t.interrupt

/-- USER_INTERRUPT_DELIVERY: deferred results are written and outstanding loads have their values, then the team enters its handler; a wait
ends at the boundary (R51, R71, R106, R361, R363). -/
def execUserInterruptDelivery (team : Nat) (s : State) : Out :=
  match s.interruptOf team with
  | none => .next s
  | some (code, bit) =>
    (s.settle team).out (fun s1 => (s1.arriveQuiet team).out (fun s2 =>
      .next (s2.mapTeam team (fun t => let e := t.endWait; e.enter true 0 code e.regs.pc bit))))

/-! ### Pre-emption (R284, R318, R368) -/

/-- Whether a team can be stopped now: it stands at a boundary with no cause to take, or is parked, or has exited (R360, R362). -/
def Team.mayStop (t : Team) : Bool :=
  match t.status with
  | .ready => t.async.isEmpty
  | .waiting _ => t.async.isEmpty
  | .parked _ _ _ _ => true
  | .exited => true
  | _ => false

/-- Whether the engine of a gang can be saved: no drain runs but one stopped on a full queue, and no command is being emulated (R318). -/
def Core.engineQuiet (c : Core) (g : Nat) : Bool :=
  c.engine.owner ≠ some g || ((c.engine.drain.isNone || c.epilogueStopped) && c.engine.emulating.isNone)

/-- Whether a command of a gang must still complete before the gang is saved: a copy command that has started, or a release (R284, R361). -/
def Cmd.mustComplete (x : Cmd) : Bool :=
  match x.kind with
  | .copy _ => x.started
  | _ => x.isRelease

/-- Whether a resident gang can be saved now (R360, R368). -/
def State.mayPreempt (s : State) (g : Nat) : Bool :=
  let x := s.gangAt g
  let c := s.coreAt x.core
  x.state = .resident && !x.rolling && !x.replay && x.heldFault.isNone && (s.teamsOf g).all (fun u => (s.teamAt u).mayStop && !s.fenceWaits u 1 4) && c.engineQuiet g
    && !c.cmds.any (fun y => y.gang = g && y.mustComplete)

/-- Every deferred instruction of a gang's teams completed, and every open window's result arrived or faulted (R71, R361). -/
def State.quiesce (s : State) (g : Nat) : Flow State :=
  (s.teamsOf g).foldl (fun (r : Flow State) u =>
    match r with
    | .error e => .error e
    | .ok s =>
      match s.settle u with
      | .error e => .error e
      | .ok s1 => s1.arriveQuiet u) (.ok s)

/-- The dirty lines of a context written back one by one; the first fault is kept for the gang, and its words stay held (R198, R368). -/
def State.saveLines (s : State) (core ctx : Nat) (lines : List L1Line) (f : Option (Cause × DWord)) :
    Flow (State × Option (Cause × DWord)) :=
  match lines with
  | [] => .ok (s, f)
  | l :: r =>
    match s.releaseLines core ctx [l] with
    | (s1, none) => s1.saveLines core ctx r f
    | (s1, some (.trap c va _ _)) => s1.saveLines core ctx r (some (f.getD (c, va)))
    | (s1, some (.wait q)) => .error (s1.request q)
    | (s1, some _) => .error s1

/-- The image of a gang on its core (R116, R284, R318, R357, R368). -/
def State.imageOf (s : State) (g : Nat) (byScheduler : Bool) (f : Option (Cause × DWord)) : GangImage :=
  let c := s.coreAt (s.gangAt g).core
  { id := s.hub.nextImage
    gang := g
    engine := if c.engine.owner = some g then some c.engine else none
    cmds := c.cmds.filter (fun x => x.gang = g && (!x.started || x.isMatrix))
    netq := c.netq.filter (fun x => x.gang = g)
    counters := (c.counters.filter (fun p => p.2.gang = some g)).map (fun p => (p.1, p.2.event, p.2.value))
    byScheduler := byScheduler
    accepted := false
    heldFault := f }

/-- A load stream without what it has read ahead (R116). -/
def Binding.saved (b : Binding) : Binding :=
  match b with
  | .load st => .load { st with ahead := [] }
  | b => b

/-- A team as it is saved: its wait ended, what its streams read ahead discarded, stopped (R116, R368). -/
def Team.saved (t : Team) : Team :=
  let e := t.endWait
  { e with stop := true, forced := false, starve := 0, yieldTo := [], stalled := Option.none, stuck := Option.none
           regs := { e.regs with q := e.regs.q.mapValues (fun _ b => b.saved) } }

/-- A quiet gang without mappings saved: its context's dirty words written back, its image made, its place on the core given up (R368). -/
def State.saveQuiet (s : State) (g : Nat) (byScheduler : Bool) : Flow State :=
  let x := s.gangAt g
  let ctx := (s.dispatchAt x.dispatch).ctx
  match s.saveLines x.core ctx (s.coreAt x.core).l1 none with
  | .error e => .error e
  | .ok (s1, f) =>
    let image := s1.imageOf g byScheduler f
    let s2 := (s1.acquire x.core ctx).mapHub (fun h => { h with images := h.images ++ [image], nextImage := h.nextImage + 1 })
    let s3 := (s2.teamsOf g).foldl (fun (s : State) u => s.mapTeam u Team.saved) s2
    .ok ((s3.mapCore x.core (fun c => c.forget g)).mapGang g (fun k => { k with state := .saved, blocks := [] }))

/-- A gang saved, steps 1 to 5 of R368; it waits for the write-back of its mapped scratchpad (R172). -/
def State.saveGang (s : State) (g : Nat) (byScheduler : Bool) : Flow State :=
  match s.quiesce g with
  | .error e => .error e
  | .ok s1 =>
    match s1.unmapGang g with
    | .error (.wait r, _) => .error (s1.request r)
    | .error _ => .error s1
    | .ok s2 => s2.saveQuiet g byScheduler

/-- PREEMPTION: the scheduler or the management window saves a gang once its teams stand at boundaries. -/
def execPreemption (gang : Nat) (s : State) : Out :=
  if s.mayPreempt gang then (s.saveGang gang true).out (fun s1 => .next s1) else .next s

/-! ### The save area (R369, R370) -/

/-- The bytes of a gang's save image (R369; log 11). -/
def Gang.imageSize (x : Gang) : Nat := 136 + Config.saveExtra x.tw x.vregs x.nteams x.scratch

/-- The code of a power of two times a base. -/
def log2Code (base n : Nat) : Nat := Nat.log2 (n / base)

/-- The state word of a team in the header (R369). -/
def Team.saveWord (t : Team) : Nat :=
  (match t.status with
   | .waiting w =>
     (match w.kind with
      | .word _ _ _ _ (some _) _ => 0
      | .barrier _ _ _ (some _) _ => 0
      | _ => 1)
   | .parked _ _ _ _ => 2
   | .exited => 3
   | _ => 0) + (if t.h then 4 else 0)

/-- The header of a save area: the gang as it stands before its save, and what the save found (R369). -/
def State.imageHeader (s : State) (g : Nat) (image : GangImage) : List Byte :=
  let x := s.gangAt g
  let state := (if image.engine.isSome then 1 else 0) + (if x.shadow.isSome then 2 else 0) + (if image.heldFault.isSome then 4 else 0)
  leBytes 4 1 ++ leBytes 4 0 ++ leBytes 8 x.imageSize ++ leBytes 4 x.dispatch ++ leBytes 4 x.glin ++ leBytes 4 x.x ++ leBytes 4 x.y
    ++ leBytes 4 x.z ++ leBytes 1 x.nteams ++ leBytes 1 (log2Code 32 x.tw + 8 * log2Code 16 x.vregs) ++ leBytes 1 state ++ leBytes 1 0
    ++ leBytes 4 (s.dispatchAt x.dispatch).ctx ++ leBytes 4 x.scratch ++ leBytes 16 0
    ++ ((List.range 16).map (fun i => leBytes 4 (if i < x.nteams then (s.teamAt (16 * g + i)).saveWord else 0))).flatten

/-- The bytes of a save area: the header, the token by which the device knows the image, and bytes that the manual leaves to the part. -/
def State.imageBytes (s : State) (g : Nat) (image : GangImage) : List Byte :=
  s.imageHeader g image ++ leBytes 8 image.id
    ++ (List.range ((s.gangAt g).imageSize - 136)).map (fun i => Config.saveByte image.id (136 + i))

/-- The gang that a register names: DISPID and GLIN (R370). -/
def State.gangNamed (s : State) (x : DWord) : Option Nat :=
  (s.gangs.find? (fun p => p.2.state = .resident && !p.2.replay && p.2.dispatch = bitsOf x 32 32 && p.2.glin = bitsOf x 0 32)).map (fun p => p.1)

/-- A write of a save image by a team: the local window is refused (R370). -/
def State.writeImage (s : State) (u : Nat) (area : Nat) (bs : List Byte) : Res State :=
  if inWindow area || inWindow (area + bs.length - 1) then .error (stopEnd .windowKind area 0x02, s)
  else s.engineWrite (some (s.coreOf u)) (s.teamAt u).gang (s.ctxOf u) .other area bs 0x02

/-- A CTXSAVE that has issued carried through, once its gang can be saved; where the area cannot be written the gang goes on unsaved. -/
def State.finishSave (s : State) (u i g : Nat) (area : DWord) : State :=
  if (s.gangAt g).state ≠ .resident then s.endDeferred u i 1
  else if !s.mayPreempt g then s
  else
    match s.saveGang g false with
    | .error s1 => s1
    | .ok s1 =>
      match s1.hub.images.getLast? with
      | none => s
      | some image =>
        match s1.writeImage u area.toNat (s.imageBytes g image) with
        | .ok s2 => s2.endDeferred u i 0
        | .error (.wait r, _) => s.request r
        | .error _ => s.endDeferred u i 3

/-- What the header of a save area says: version, size, dispatch, codes, the token. -/
def imageToken (bs : List Byte) : Nat := packetField bs 128 8

/-- Whether the header of a save area is sound: version, codes, and a size that fits them (R370). -/
def headerSound (bs : List Byte) : Bool :=
  let codes := packetField bs 37 1
  let n := packetField bs 36 1
  packetField bs 0 4 = 1 && decide (codes % 8 ≤ 5) && decide (codes / 8 ≤ 4) && decide (1 ≤ n) && decide (n ≤ 16)
    && packetField bs 8 8 = 136 + Config.saveExtra (32 * 2 ^ (codes % 8)) (16 * 2 ^ (codes / 8)) n (packetField bs 44 4)

/-- The image that the bytes of a save area stand for, saved by CTXSAVE and not yet given back; its dispatch is still valid (R370). -/
def State.imageFor (s : State) (bs : List Byte) : Option GangImage :=
  if !headerSound bs then none
  else
    (s.hub.images.find? (fun i => i.id = imageToken bs && !i.byScheduler && !i.accepted)).filter (fun i =>
      (s.dispatchAt (s.gangAt i.gang).dispatch).valid && (s.gangAt i.gang).dispatch = packetField bs 16 4
        && (s.gangAt i.gang).glin = packetField bs 20 4)

/-- A save area read and its image accepted: the state and the result code of CTXRST. -/
def State.acceptImage (s : State) (read : Nat → Res (State × List Byte)) : Except Stop (State × Nat) :=
  match read 136 with
  | .error (.wait r, _) => .error (.wait r)
  | .error _ => .ok (s, 3)
  | .ok (s1, bs) =>
    if !headerSound bs then .ok (s1, 1)
    else
      match read (packetField bs 8 8) with
      | .error (.wait r, _) => .error (.wait r)
      | .error _ => .ok (s, 3)
      | .ok (s2, whole) =>
        match s2.imageFor whole with
        | none => .ok (s2, 1)
        | some i => .ok (s2.mapHub (fun h => { h with images := h.images.map (fun k => if k.id = i.id then { k with accepted := true } else k) }), 0)

/-! ### Restoration (R40, R44, R209, R318, R357, R368) -/

/-- The blocks that a saved gang would take on a core that has room for it, for its commands and, where it owned an engine, for that. -/
def State.restoreRoom (s : State) (i : GangImage) (core : Nat) : Option (List (Nat × Nat)) :=
  let x := s.gangAt i.gang
  let d := s.dispatchAt x.dispatch
  let k := s.coreAt core
  if (i.engine.isSome && k.engine.owner.isSome) || 64 < k.cmds.length + i.cmds.length || 32 < k.netq.length + i.netq.length then none
  else s.roomOn core x.shape d.rollback (s.mappingsFor d.ctx x.dispatch x.glin).length

/-- The commands of an image entered in a core's scheduler again, in their order, with their edges and those that the core's commands
give them; one that already waits for the command that comes back gives it none (R275, R284). -/
def Core.reissue (c : Core) (l : List Cmd) : Core :=
  l.foldl (fun (c : Core) x =>
    let after := waitingOn c.cmds c.cmds.length [x.id]
    let more := (c.cmds.filter (fun e => e.precedes x.ctx x.gang x.kind x.regions && !x.edges.contains e.id && !after.contains e.id)).map (fun e => e.id)
    { c with cmds := c.cmds ++ [if x.started then x else { x with edges := x.edges ++ more }] }) c

/-- The event counters of an image claimed again, where they are free; the others lapse with their values (R357). -/
def State.reclaim (s : State) (g core : Nat) (l : Map (Nat × BitVec 48)) : State :=
  l.foldl (fun (s : State) p =>
    match ((s.coreAt core).counters.find p.1).bind (fun c => c.gang) with
    | none => s.mapCore core (fun c => { c with counters := c.counters.set p.1 ⟨some g, p.2.1, p.2.2⟩ })
    | some _ => s.mapGang g (fun x => { x with lapsed := x.lapsed.set p.1 p.2.2 })) s

/-- A saved gang restored on a core (R44, R209, R368). -/
def State.restoreGang (s : State) (i : GangImage) (core : Nat) (blocks : List (Nat × Nat)) : State :=
  let x := s.gangAt i.gang
  let ctx := (s.dispatchAt x.dispatch).ctx
  let s1 := (s.wakeCore core).mapHub (fun h => { h with images := h.images.filter (fun k => k.id ≠ i.id) })
  let s2 := (s1.mapGang i.gang (fun k => { k with core := core })).bindTeams i.gang core
  let s3 := s2.mapGang i.gang (fun k => { k with state := .resident, blocks := blocks, heldFault := i.heldFault })
  let s4 := s3.mapCore core (fun c =>
    let c1 := c.reissue i.cmds
    { c1 with netq := c1.netq ++ i.netq, engine := i.engine.getD c1.engine })
  ((s4.reclaim i.gang core i.counters).loadMappings i.gang).acquire core ctx

/-- Whether an image's commands wait for commands that started before the save and stay in the old core's scheduler (R275, R284). -/
def State.edgesPending (s : State) (i : GangImage) : Bool :=
  (s.coreAt (s.gangAt i.gang).core).cmds.any (fun e => i.cmds.any (fun x => x.edges.contains e.id))

/-- GANG_RESTORE: a gang that the scheduler saved, or whose image CTXRST has accepted, is admitted and restored where a core has room. -/
def execGangRestore (image : Nat) (s : State) : Out :=
  match s.hub.images.find? (fun i => i.id = image && (i.byScheduler || i.accepted)) with
  | none => .next s
  | some i =>
    let x := s.gangAt i.gang
    let d := s.dispatchAt x.dispatch
    if x.state ≠ .saved || s.edgesPending i then .next s
    else
      match s.placement (s.sliceFor d x.x x.y x.z) d.mark (s.restoreRoom i) with
      | none => .next s
      | some (core, blocks) =>
        match s.claimFor core d.ctx x.dispatch x.glin x.scratch blocks with
        | .error (.wait r, s1) => .next (s1.request r)
        | .error (_, s1) => .next s1
        | .ok s1 => .next (s1.restoreGang i core blocks)

/-- MGMT_GANG_RESTORE: system software gives back a gang that CTXSAVE saved, its area read in a context (R368). -/
def execMgmtGangRestore (area : DWord) (ctx : Nat) (s : State) : Out :=
  match s.acceptImage (fun n => s.cpRead ctx area.toNat n) with
  | .error (.wait r) => .next (s.request r)
  | .error _ => .next s
  | .ok (s1, _) => .next s1

/-! ### RESUME (R362, R366) -/

/-- The window by which a team parked opened again: its recorded access will be performed anew (R71). -/
def reopen (ws : List Window) (pc va : DWord) : List Window :=
  match ws with
  | [] => []
  | w :: r =>
    match w.res with
    | .faulted p _ v => if w.pc = pc && v = va then { w with res := .pending p } :: r else w :: reopen r pc va
    | _ => w :: reopen r pc va

/-- A team released from its park; an ECALL receives its value (R362, R365). -/
def State.resumeTeam (s : State) (u : Nat) (v : DWord) : State :=
  match (s.teamAt u).status with
  | .parked _ _ _ kind =>
    let s1 := s.mapTeam u (fun t => { t with status := .ready })
    match kind with
    | .window => s1.mapTeam u (fun t => { t with windows := reopen t.windows t.tepc t.tval, frozen := reopen t.frozen t.tepc t.tval })
    | .ecall d => s1.asTeam u (fun s => (s.setS d v).advance)
    | _ => s1
  | _ => s

/-- The gang of a team or command ended by a kill, with its dispatch; no record is made again (R366). -/
def State.killGang (s : State) (g : Nat) (c : Cause) : State :=
  let x := s.gangAt g
  if x.state = .resident || x.state = .saved then s.endDispatch x.dispatch c else s

/-- A command that a fault holds dropped. -/
def State.killCommand (s : State) (core id : Nat) (c : Cause) : State :=
  match (s.coreAt core).command id with
  | none => s
  | some x =>
    let s1 := match x.kind with
      | .loam l => s.dropLoam l.place.1 core id
      | _ => s.mapCore core (fun k => k.dropCommand id)
    s1.killGang x.gang c

/-- What a fault id holds released (R362, R366). -/
def State.releaseHeld (s : State) (h : Held) (v : DWord) : State :=
  match h with
  | .team u => s.resumeTeam u v
  | .command core id => s.mapCore core (fun k => k.mapCommand id (fun y => { y with stopped := false }))
  | .completion d => s.mapDispatch d (fun y => { y with completing := false })
  | .ringSlot q => s.mapQueue q (fun y => { y with slotHeld := false })
  | .waitPacket q => s.mapQueue q (fun y => { y with wait := y.wait.map (fun w => { w with held := false }) })
  | .placement conn => (s.mapConn conn (fun k => { k with held := false })).publishAll conn
  | .send conn id =>
    match (s.connAt conn).sends.find? (fun x => x.id = id) with
    | some x => s.readSend conn x
    | none => s

/-- What a fault id holds ended (R366): a WAIT whose signal waits for the host completes with its watchdog. -/
def State.killHeld (s : State) (h : Held) (c : Cause) : State :=
  match h with
  | .team u => s.killGang (s.teamAt u).gang c
  | .command core id => s.killCommand core id c
  | .completion d => (s.discardHeld (s.dispatchAt d).ctx).mapDispatch d (fun y => { y with completing := false, failed := some c })
  | .ringSlot q => s.mapQueue q (fun y => { y with slotHeld := false, readIdx := y.readIdx + 1 })
  | .waitPacket q =>
    match (s.queueAt q).wait with
    | some w => (s.mapQueue q (fun y => { y with wait := some { w with held := false, ticks := max w.ticks y.limit } })).endWaitPacket q
        { w with held := false, ticks := max w.ticks (s.queueAt q).limit } (some .watchdogExpiry)
    | none => s
  | .placement conn =>
    (s.mapConn conn (fun k => { (k.answer (k.published + 1) (some c)) with
      held := false
      arrived := k.arrived.update (k.published + 1) (fun p => { p with target := none }) })).publishAll conn
  | .send conn id =>
    match (s.connAt conn).sends.find? (fun x => x.id = id) with
    | some x => (s.mapConn conn (fun k => { k with sends := k.sends.filter (fun y => y.id ≠ id) })).killGang x.cmd.gang c
    | none => s

/-- RESUME, or with kill RESUME.kill, of a fault id of a function: the state and the result code 0 or 1. `v` is the value for an ECALL. -/
def State.resumeId (s : State) (fn id : Nat) (kill : Bool) (v : DWord) : State × Nat :=
  match s.hub.held.find? (fun x => x.fn = fn && x.id = id) with
  | none => (s, 1)
  | some x =>
    let s1 := s.mapHub (fun h => { h with held := h.held.filter (fun y => !(y.fn = fn && y.id = id)) })
    (x.holds.foldl (fun (s : State) h => if kill then s.killHeld h x.cause else s.releaseHeld h v) s1, 0)

/-- RESUME through a function record: the value of an ECALL is left open by the manual, since the register holds none (R331; log 2). -/
def State.mgmtResume (s : State) (fn id : Nat) (kill : Bool) : State :=
  let (v, s1) := s.takeFree
  let (s2, code) := s1.resumeId fn id kill v
  s2.mapFn fn (fun f => { f with resumeCode := BitVec.ofNat 2 code })

/-- MGMT_RESUME (R331, R366). -/
def execMgmtResume (function id : Nat) (s : State) : Out := .next (s.mgmtResume function id false)

/-- MGMT_RESUME_KILL (R331, R366). -/
def execMgmtResumeKill (function id : Nat) (s : State) : Out := .next (s.mgmtResume function id true)

end Sys2Proof.Machine
end

