-- ==== Sys2Proof/Machine/System.lean ====
section
/-! DEFINITION. The special registers and the system instructions of class 2 (R30, R104 to R106, R131 to R134, R355 to R357, R363 to R367,
R370). -/
namespace Sys2Proof.Machine

/-! ### Special registers (R104, R132, R133) -/

/-- CLASS of a team (R30). -/
def State.classOf (s : State) (u : Nat) : DWord :=
  let d := s.dispatchOf u
  flag 4 (s.gangAt (s.teamAt u).gang).persistent ||| flag 3 d.fetchable ||| flag 2 d.cont ||| (if d.parallel then 1 else 2)

/-- The value of a special register of scalar kind (R104); a number that SRD does not take gives none. CYC is the count of the team's current core, or
while that is lower the highest value that the team has read (R132; DESIGN CHOICE, log 83). -/
def State.special (s : State) (u n : Nat) : Option DWord :=
  let t := s.teamAt u
  let g := s.gangAt t.gang
  match n with
  | 0x01 => some (BitVec.ofNat 64 g.tw)
  | 0x02 => some (BitVec.ofNat 64 t.teamid)
  | 0x03 => some (BitVec.ofNat 64 g.nteams)
  | 0x04 => some (BitVec.ofNat 64 g.x)
  | 0x05 => some (BitVec.ofNat 64 g.y)
  | 0x06 => some (BitVec.ofNat 64 g.z)
  | 0x07 => some (BitVec.ofNat 64 g.glin)
  | 0x08 => some (BitVec.ofNat 64 g.dispatch)
  | 0x09 => some (s.classOf u)
  | 0x0A => some (BitVec.ofNat 64 g.core)
  | 0x0B => some (BitVec.ofNat 64 (dieOf g.core))
  | 0x0C => some (BitVec.ofNat 64 (max (s.cycOf g.core) t.cyc))
  | 0x0D => some (BitVec.ofNat 64 s.tick)
  | 0x10 => some (t.regs.fflags.setWidth 64)
  | 0x11 => some t.regs.uhandler
  | 0x12 => some t.regs.ucause
  | 0x13 => some t.regs.uepc
  | 0x14 => some t.regs.uval
  | 0x15 => some (t.regs.uien.setWidth 64)
  | _ => none

/-- SRD: LANE into the active lanes of a vector; CYC and TICK sampled as it issues, written under R68; the others at once (R132). -/
def execSrd (o : Ops) (s : State) : Out :=
  let n := o.a.num.toNat
  let d := o.d.num.toNat
  if n = 0 then
    (s.putRegs (s.regs.setLanes s.tw d (fun l => if s.regs.active s.tw o.mask l then some (BitVec.ofNat 32 l) else none))
      (fun b => match b with | .vector m l => m = d && s.regs.active s.tw o.mask l | _ => false)).retire
  else if n = 0x0C || n = 0x0D then
    (s.windowRoom s.cur).out (fun s1 =>
      match s1.special s1.cur n with
      | some x =>
        (if n = 0x0C then s1.setTeam { s1.team with cyc := x.toNat } else s1).retireLong o.la (.ready [.scal d x] 0)
      | none => s1.trapWord .illegalRegister (.srd o))
  else
    match s.special s.cur n with
    | some x => (s.setS d x).retire
    | none => s.trapWord .illegalRegister (.srd o)

/-- Bits [56:3] of a value, as UHANDLER and UEPC hold it (R133). -/
def addressBits (x : DWord) : DWord := x &&& 0x01FFFFFFFFFFFFF8#64

/-- UIEN after an SWR of a value: the enables take it, and pending bits are cleared where it holds 1 (R106, R133). -/
def uienWrite (uien : BitVec 11) (x : DWord) : BitVec 11 :=
  (x.setWidth 11 &&& 0x00F) ||| (uien &&& 0x700 &&& ~~~(x.setWidth 11))

/-- The registers with a special register written (R133); a number that SWR does not take gives none. -/
def TeamRegs.setSpecial (r : TeamRegs) (n : Nat) (x : DWord) : Option TeamRegs :=
  match n with
  | 0x10 => some { r with fflags := x.setWidth 5 }
  | 0x11 => some { r with uhandler := addressBits x }
  | 0x12 => some { r with ucause := x &&& 0x800000000001FFFF#64 }
  | 0x13 => some { r with uepc := addressBits x }
  | 0x14 => some { r with uval := x }
  | 0x15 => some { r with uien := uienWrite r.uien x }
  | _ => none

/-- The pending bits of UIEN that the core has set in this cycle: an SWR does not clear those that are still set (R134). -/
def State.freshBits (s : State) : BitVec 11 := if s.team.fresh.1 = s.cycles then s.team.fresh.2 else 0

/-- SWR (R133, R134). -/
def execSwr (o : Ops) (s : State) : Out :=
  match s.regs.setSpecial o.d.num.toNat (s.regs.source o.a) with
  | some r => (s.setRegs (if o.d.num = 0x15 then { r with uien := r.uien ||| (s.regs.uien &&& s.freshBits) } else r)).retire
  | none => s.trapWord .illegalRegister (.swr o)

/-! ### Traps, the return from the handler, the end and the turn (R363, R365) -/

/-- NOP (R365). -/
def execNop (_ : Ops) (s : State) : Out := s.retire

/-- TRAP n: deferred results are written and outstanding loads have their values before the handler is entered (R71, R361, R365). -/
def execTrap (o : Ops) (s : State) : Out :=
  (s.settle s.cur).out (fun s1 => (s1.arriveQuiet s1.cur).out (fun s2 =>
    .next (s2.deliverTrap s2.cur .userTrap o.a.num s2.regs.pc (s2.regs.pc + 8) none)))

/-- The mark of a held synchronisation cleared where the handler returns elsewhere, with that of the handler's own stream (R348). -/
def Team.keepHold (t : Team) : Team := { t with held := t.held.filter (fun h => !h.inHandler && h.pc = t.regs.uepc) }

/-- URET: the handler's windows close, the interval is sealed, and the team goes on at UEPC (R348, R363, R372). -/
def execUret (_ : Ops) (s : State) : Out :=
  if !s.team.h then s.trapEnd .illegalInstruction
  else
    (s.closeAll s.cur).out (fun s1 =>
      let pc := s1.regs.uepc
      match badTarget pc.toNat with
      | some c => .next (s1.endTeam s1.cur c s1.regs.pc pc 0x04 pc)
      | none => .next ((s1.sealInterval s1.team.gang).mapTeam s1.cur (fun t => t.keepHold.leave)))

/-- ECALL: the interval is sealed and the team parks; its record holds s(a) (R365, R372). -/
def execEcall (o : Ops) (s : State) : Out :=
  .next ((s.sealInterval s.team.gang).park s.cur .environmentCall (.ecall o.d.num.toNat) s.regs.pc 0 0 (s.regs.source o.a) (.team s.cur))

/-- HALT n: the team's windows close and its gang and dispatch end (R365). -/
def execHalt (o : Ops) (s : State) : Out :=
  (s.closeAll s.cur).out (fun s1 => .next (s1.endTeam s1.cur .userTrap s1.regs.pc 0 0 (o.a.num.setWidth 64)))

/-- The other teams of a team's pipe that are ready (R365). -/
def State.pipeRivals (s : State) (u : Nat) : List Nat :=
  (s.teams.filter (fun p => p.1 ≠ u && p.2.isReady && p.2.pipe = (s.teamAt u).pipe && s.coreOf p.1 = s.coreOf u)).map (fun p => p.1)

/-- YIELD: the team waits for one issue of each team of its pipe that is ready now (R365). -/
def execYield (_ : Ops) (s : State) : Out := (s.mapTeam s.cur (fun t => { t with yieldTo := s.pipeRivals s.cur })).retire

/-! ### Event counters (R355 to R357) -/

/-- EVSEL (R356). -/
def execEvsel (o : Ops) (s : State) : Out :=
  let n := o.var.toNat
  let ev := (s.regs.source o.a).toNat
  let d := o.d.num.toNat
  let g := s.team.gang
  let core := s.gang.core
  if 11 < ev then (s.setS d 2).retire
  else
    match ((s.coreAt core).counters.find n).bind (fun c => c.gang) with
    | some g' =>
      if g' ≠ g then (s.setS d 1).retire
      else (((s.mapCore core (fun c => { c with counters := c.counters.set n ⟨if ev = 0 then none else some g, ev, 0⟩ })).mapGang g
        (fun x => { x with lapsed := x.lapsed.erase n })).setS d 0).retire
    | none => (((s.mapCore core (fun c => { c with counters := c.counters.set n ⟨if ev = 0 then none else some g, ev, 0⟩ })).mapGang g
        (fun x => { x with lapsed := x.lapsed.erase n })).setS d 0).retire

/-- The word of EVRD for a counter of a gang (R357). -/
def State.eventWord (s : State) (g core n : Nat) : DWord :=
  let c := (s.coreAt core).counters.get .none n
  if c.gang = some g then c.value.setWidth 64
  else
    match (s.gangAt g).lapsed.find n with
    | some v => flag 63 true ||| v.setWidth 64
    | none => 0

/-- EVRD (R357). -/
def execEvrd (o : Ops) (s : State) : Out :=
  (s.setS o.d.num.toNat (s.eventWord s.team.gang s.gang.core o.var.toNat)).retire

/-! ### Privileged instructions (R361, R364, R366, R367, R370) -/

/-- Whether the issuing context may act on a function's things: its own, or any from function 0 (R366, R367, R370). -/
def State.mayActOn (s : State) (fn : Nat) : Bool :=
  let own := s.fnOf (s.ctxOf s.cur)
  own = 0 || own = fn

/-- CTXSAVE, and CTXSAVE.sz (R370). -/
def execCtxsave (o : Ops) (s : State) : Out :=
  let d := o.d.num.toNat
  let area := s.regs.source o.b
  match (s.gangNamed (s.regs.source o.a)).filter (fun g => s.mayActOn (s.fnOf (s.dispatchAt (s.gangAt g).dispatch).ctx)) with
  | none => s.retireDeferred d 1
  | some g =>
    if o.var.getLsbD 0 then s.retireDeferred d (BitVec.ofNat 64 (s.gangAt g).imageSize)
    else if s.saveInProgress g then s.retireDeferred d 2
    else if area.toNat % 4096 ≠ 0 then s.retireDeferred d 3
    else (s.defer d (.ctxsave (BitVec.ofNat 64 g) area)).retire

/-- A read of a save area by a team: the local window is refused (R370). -/
def State.readImage (s : State) (u area n : Nat) : Res (State × List Byte) :=
  if inWindow area || inWindow (area + n - 1) then .error (stopEnd .windowKind area 0x01, s)
  else s.engineRead (s.coreOf u) (s.teamAt u).gang (s.ctxOf u) area n 0x01

/-- CTXRST (R370). -/
def execCtxrst (o : Ops) (s : State) : Out :=
  match s.acceptImage (fun n => s.readImage s.cur (s.regs.source o.a).toNat n) with
  | .error e => .next (s.stopAt e)
  | .ok (s1, code) => s1.retireDeferred o.d.num.toNat (BitVec.ofNat 64 code)

/-- RESUME, and RESUME.kill (R366): the team goes on before the thing that is held is released or ended, since that may end the team. -/
def execResume (o : Ops) (s : State) : Out :=
  let fn := bitsOf (s.regs.source o.a) 32 6
  let id := bitsOf (s.regs.source o.a) 0 32
  let d := o.d.num.toNat
  if !s.mayActOn fn then s.retireDeferred d 2
  else if s.hub.held.any (fun x => x.fn = fn && x.id = id) then
    .next ((s.defer d (.value 0)).advance.resumeId fn id (o.var.getLsbD 0) (s.regs.source o.b)).1
  else s.retireDeferred d 1

/-- The set that a TLBINV names, or none where it is not permitted (R328, R367). -/
def State.invScope (s : State) (o : Ops) : Option (Option (Nat × Option (Nat × Nat))) :=
  let a := s.regs.source o.a
  let b := s.regs.source o.b
  match o.var.toNat with
  | 0 => if s.mayActOn (s.fnOf (bitsOf b 48 16)) then some (some (bitsOf b 48 16, some (a.toNat, bitsOf b 0 48))) else none
  | 1 => if s.mayActOn (s.fnOf (bitsOf a 0 16)) then some (some (bitsOf a 0 16, none)) else none
  | _ => if s.fnOf (s.ctxOf s.cur) = 0 then some none else none

/-- Whether the set of an invalidation is a range of length 0 (R367). -/
def emptyScope (scope : Option (Nat × Option (Nat × Nat))) : Bool := match scope with | some (_, some (_, 0)) => true | _ => false

/-- An invalidation requested (R328). -/
def State.requestInv (s : State) (scope : Option (Nat × Option (Nat × Nat))) (by_ : InvRequester) : State :=
  s.mapHub (fun h => { h with invs := h.invs ++ [⟨h.nextInv, scope, by_⟩], nextInv := h.nextInv + 1 })

/-- TLBINV (R367). -/
def execTlbinv (o : Ops) (s : State) : Out :=
  (s.fence 1 4).out (fun s1 =>
    match s1.invScope o with
    | none => s1.retireDeferred o.d.num.toNat 1
    | some scope =>
      if emptyScope scope then s1.retireDeferred o.d.num.toNat 0
      else ((s1.defer o.d.num.toNat (.tlbinv s1.hub.nextInv)).requestInv scope (.team s1.cur)).retire)

end Sys2Proof.Machine
end

