-- ==== Sys2Proof/Machine/Timers.lean ====
section
/-! DEFINITION. Steps that concern one team beside its issues: refused words, arriving results, deferred destinations, read-ahead, timers and
waits, and the walks and invalidations of translation (R39, R50, R70, R74, R110, R201, R202, R260, R326, R328, R347, R353, R361). -/
namespace Sys2Proof.Machine

/-- ILLEGAL_INSTRUCTION: the word is refused, and TVAL holds it (R74). So it is with an SRD or SWR that names an unassigned register or, without
privilege, one of class P, which the decoder refuses: R132 and R133 name the cause 0x03 and leave TVAL to R359 (DESIGN CHOICE, log 6). -/
def execIllegalInstruction (cause : Cause) (word : DWord) (s : State) : Out := .next (s.endTeam s.cur cause s.regs.pc word 0 word)

/-- LONG_LATENCY_RESULT_ARRIVAL: the access of an open window of a resident team is performed, after those of earlier windows, or its fault
recorded (R70, R71). -/
def execLongLatencyResultArrival (team window : Nat) (s : State) : Out :=
  if (s.gangAt (s.teamAt team).gang).state = .resident then (s.arriveUnblocked team (window + 1)).out (fun s1 => .next s1) else .next s

/-- DEFERRED_DESTINATION_WRITE: a deferred instruction completes, where it can (R361, R370). -/
def execDeferredDestinationWrite (team index : Nat) (s : State) : Out :=
  match (s.teamAt team).deferred[index]? with
  | none => .next s
  | some k =>
    match k.op with
    | .ctxsave g area => .next (s.finishSave team index g.toNat area)
    | _ => .next ((s.completeDeferred team index).getD s)

/-- LOAD_STREAM_READAHEAD: the vector after those read ahead, at most eight, is read; a read that faults is left to the pop that needs it (R110,
R259). -/
def execLoadStreamReadahead (team queue : Nat) (s : State) : Out :=
  match (s.teamAt team).regs.q.find queue with
  | some (.load st) =>
    let next : Stream := { st with pos := st.pos + st.ahead.length, ahead := [] }
    if next.done || 8 ≤ st.ahead.length || (s.gangAt (s.teamAt team).gang).state ≠ .resident then .next s
    else
      match s.streamRead team next with
      | .error (.wait r, s1) => .next (s1.request r)
      | .error (_, s1) => .next s1
      | .ok (s1, x) => .next (s1.mapTeam team (fun t => { t with
          regs := { t.regs with q := t.regs.q.set queue (.load { st with ahead := st.ahead ++ [x] }) } }))
  | _ => .next s

/-- STARVATION_TIMER_EXPIRY: a ready team whose timer reaches 224 takes forced priority (R39), as it does with the cycle in which it reaches it. -/
def execStarvationTimerExpiry (team : Nat) (s : State) : Out :=
  if (s.teamAt team).isReady && !(s.teamAt team).h && decide (224 ≤ (s.teamAt team).starve) then .next (s.mapTeam team (fun t => { t with forced := true }))
  else .next s

/-! ### Waits (R50, R201, R202, R347, R353) -/

/-- The limit of a team's watchdog, that of its host queue (R50, R353). -/
def State.watchdogLimit (s : State) (u : Nat) : Nat := (s.queueAt (s.dispatchOf u).queue).limit

/-- The hint of a wait; a blocking wait has none. -/
def Wait.hint (w : Wait) : Option Nat :=
  match w.kind with
  | .word _ _ _ _ h _ => h
  | .barrier _ _ _ h _ => h
  | _ => none

/-- Whether a wait can still complete: its hint, or the limit of its watchdog, has not passed before this tick (R50, R202, R347). -/
def Wait.live (w : Wait) (limit : Nat) : Bool := decide (w.ticks ≤ w.hint.getD limit)

/-- WATCHDOG_HALF: a blocking wait that has passed half its limit sets UIEN.WDWP, once per issue (R353). -/
def execWatchdogHalf (team : Nat) (s : State) : Out :=
  match (s.teamAt team).status with
  | .waiting w =>
    if w.hint.isNone && !w.half && decide (s.watchdogLimit team < 2 * w.ticks) then
      .next (s.mapTeam team (fun t => { t with
        status := .waiting { w with half := true } }.pend s.cycles 0x200))
    else .next s
  | _ => .next s

/-- A wait on a word evaluated: it completes with 1 where the condition holds, and `otherwise` follows where it does not, or the host has not
answered. An address that faults parks the team, which issues the wait afresh (R51, R201). -/
def State.evaluate (s : State) (u : Nat) (ea : DWord) (cond : BitVec 2) (ty : ElemType) (v : DWord) (d : Nat) (otherwise : State → State) :
    State :=
  match s.waitWord u ea ty.size with
  | .error (.wait r, s1) => otherwise (s1.request r)
  | .error (e, s1) => s1.asTeam u (fun s => s.stopAt e)
  | .ok (s1, w) => if condHolds cond ty w v.toNat then s1.finishWait u d 1 else otherwise s1

/-- WAITA_EVALUATION, while the wait can still complete (R50, R201, R202). -/
def execWaitaEvaluation (team : Nat) (s : State) : Out :=
  match (s.teamAt team).status with
  | .waiting w =>
    match w.kind with
    | .word ea cond ty v _ d =>
      if w.live (s.watchdogLimit team) then .next (s.evaluate team ea cond ty v d (fun s => s)) else .next s
    | _ => .next s
  | _ => .next s

/-- A gang ended by the watchdog of a team (R50, R260). -/
def State.expire (s : State) (u : Nat) : State := s.endTeam u .watchdogExpiry (s.teamAt u).regs.pc 0 0 0

/-- The end of a wait whose hint or watchdog has expired: a word is evaluated a last time, a try-wait writes 0 or a result without done, a blocking
wait ends the gang (R50, R202, R347). -/
def State.endLapsed (s : State) (u : Nat) (w : Wait) : State :=
  match w.kind, w.hint with
  | .word ea cond ty v _ d, some _ => s.evaluate u ea cond ty v d (fun s => s.finishWait u d 0)
  | .word ea cond ty v _ d, none => s.evaluate u ea cond ty v d (fun s => s.expire u)
  | .barrier b _ _ _ d, some _ => s.finishWait u d (barrierResult false false (s.token (s.teamAt u).gang b))
  | _, _ => s.expire u

/-- Whether a push that stalls behind its gang's own stopped epilogue has waited for the limit (R260). -/
def State.pushLapsed (s : State) (u limit : Nat) : Bool :=
  let g := (s.teamAt u).gang
  let c := s.coreAt (s.gangAt g).core
  match (s.teamAt u).stalled with
  | some n => c.engine.owner = some g && c.epilogueStopped && decide (limit < n)
  | none => false

/-- WATCHDOG_EXPIRY: of a blocking wait, or of a push that stalls behind the gang's own stopped epilogue, whose limit has passed before this
tick; in the tick of expiry the condition is still evaluated (R50, R260). -/
def execWatchdogExpiry (team : Nat) (s : State) : Out :=
  let limit := s.watchdogLimit team
  match (s.teamAt team).status with
  | .waiting w =>
    if w.hint.isSome || decide (w.ticks < limit) then .next s
    else if w.ticks = limit then execWaitaEvaluation team s
    else .next (s.endLapsed team w)
  | .ready => if s.pushLapsed team limit then .next (s.expire team) else .next s
  | _ => .next s

/-- TRYWAIT_TIMEOUT: in the tick of expiry the word is evaluated; once that tick has passed 0 is written where the condition does not hold
(R202). -/
def execTrywaitTimeout (team : Nat) (s : State) : Out :=
  match (s.teamAt team).status with
  | .waiting w =>
    match w.kind with
    | .word _ _ _ _ (some h) _ =>
      if w.ticks < h then .next s else if w.ticks = h then execWaitaEvaluation team s else .next (s.endLapsed team w)
    | _ => .next s
  | _ => .next s

/-- BARTRYWAIT_TIMEOUT: a phase that completes in the tick of expiry still gives done, so the result without it is written once that tick has
passed (R347). -/
def execBartrywaitTimeout (team : Nat) (s : State) : Out :=
  match (s.teamAt team).status with
  | .waiting w =>
    match w.kind with
    | .barrier _ _ _ (some h) _ => if w.ticks ≤ h then .next s else .next (s.endLapsed team w)
    | _ => .next s
  | _ => .next s

/-! ### Translation (R326, R328) -/

/-- PAGE_WALK: a walk sets the bits of its leaf and is remembered by the core's and the die's caches; a walk that faults changes nothing, and
one that meets a line of the host waits for it (R326, R327). -/
def execPageWalk (core ctx : Nat) (va : DWord) (access : Access) (s : State) : Out :=
  match s.translate ⟨some core, none⟩ ctx va.toNat access 0 with
  | .error (.wait r, s1) => .next (s1.request r)
  | .error _ => .next s
  | .ok r => .next r.1

/-- TLB_INVALIDATION_COMPLETE: where accesses translated before it are still in flight it does not complete yet (R328). -/
def execTlbInvalidationComplete (id : Nat) (s : State) : Out := .next (s.completeInv id).1

end Sys2Proof.Machine
end

