-- ==== Sys2Proof/Machine/Management.lean ====
section
/-! DEFINITION. Stores to the management window (R265, R330 to R336, R385, R391, R392, R394): records, invalidations, scratchpad mappings,
operator slots, beds, bias, placement parameters, islands, retest and attestation. -/
namespace Sys2Proof.Machine

/-- A store's effect, and whether it was taken; a store that was not is counted as refused (R330). -/
abbrev Stored := State × Bool

/-- The state that an event leaves. -/
def State.after (s : State) (o : Out) : State := match o with | .next t => t | _ => s

/-! ### Function and context records (R328, R331) -/

/-- A store of a function record's first doubleword: its RW fields are taken while the record is not valid. -/
def State.storeFn0 (s : State) (f : Nat) (v : DWord) : Stored :=
  let r := s.fnAt f
  let flog := BitVec.ofNat 4 (bitsOf v 57 4)
  let ring := field 0 57 (v.toNat / 4096 * 4096)
  if !r.valid then (s.mapFn f (fun x => { x with valid := v.getLsbD 63, flog := flog, fring := ring }), true)
  else if !v.getLsbD 63 then (s.mapFn f (fun x => { x with valid := false }), true)
  else (s, r.flog = flog && r.fring = ring)

/-- The set that an icmd code names with a record's iva and ictl (R331). -/
def FnRecord.scope (r : FnRecord) (code : Nat) : Option (Nat × Option (Nat × Nat)) :=
  match code with
  | 0 => some (bitsOf r.ictl 48 16, some (r.iva.toNat, bitsOf r.ictl 0 48))
  | 1 => some (bitsOf r.ictl 48 16, Option.none)
  | _ => Option.none

/-- Whether a function may invalidate the set of an icmd code (R331). -/
def State.mayInvalidate (s : State) (f code : Nat) : Bool :=
  f = 0 || (code ≠ 2 && s.fnOf (bitsOf (s.fnAt f).ictl 48 16) = f)

/-- A write to icmd: refused while busy or with code 3; else it starts the invalidation, or istat says that it is not permitted. -/
def State.storeIcmd (s : State) (f code : Nat) : Stored :=
  let r := s.fnAt f
  if r.invBusy.isSome || 3 ≤ code then (s, false)
  else if !s.mayInvalidate f code then (s.mapFn f (fun x => { x with invRefused := true }), true)
  else if emptyScope (r.scope code) then (s.mapFn f (fun x => { x with invRefused := false }), true)
  else
    ((s.mapFn f (fun x => { x with invBusy := some s.hub.nextInv, invRefused := false })).requestInv (r.scope code) (.fn f), true)

/-- A store that was not taken counted for a function (R330). -/
def State.counted (r : Stored) (f : Nat) : State := if r.2 then r.1 else r.1.refuse f

/-- ICMD_VA. -/
def execIcmdVa (function : Nat) (s : State) : Out := .next (State.counted (s.storeIcmd function 0) function)

/-- ICMD_CTX. -/
def execIcmdCtx (function : Nat) (s : State) : Out := .next (State.counted (s.storeIcmd function 1) function)

/-- ICMD_ALL. -/
def execIcmdAll (function : Nat) (s : State) : Out := .next (State.counted (s.storeIcmd function 2) function)

/-- A store to a function record (R331); resume is the RESUME of R366. -/
def State.storeFn (s : State) (f i : Nat) (v : DWord) : Stored :=
  match i with
  | 0 => s.storeFn0 f v
  | 2 => (s.mgmtResume f (bitsOf v 0 32) (v.getLsbD 32), true)
  | 4 => (s.mapFn f (fun x => { x with iva := v }), true)
  | 5 => (s.mapFn f (fun x => { x with ictl := v }), true)
  | 6 => s.storeIcmd f (bitsOf v 0 2)
  | _ => (s, true)

/-- Whether a context has resident gangs, beds or operators (R331). -/
def State.ctxInUse (s : State) (c : Nat) : Bool :=
  s.gangs.any (fun p => p.2.state = .resident && (s.dispatchAt p.2.dispatch).ctx = c)
    || s.slices.any (fun p => p.2.beds.any (fun b => b.2.ctx = c) || p.2.slots.any (fun q => q.2.ctx = c && q.2.op.isSome))

/-- A context destroyed: the buffers that it has posted are revoked (R331, R382). -/
def State.dropCtx (s : State) (c : Nat) : State :=
  (s.mapCtx c (fun x => { x with valid := false })).mapNet (fun n => { n with
    conns := n.conns.mapValues (fun _ k => { k with buffers := k.buffers.filter (fun b => b.2.ctx ≠ c) }) })

/-- A store to a context record (R331). -/
def State.storeCtx (s : State) (c i : Nat) (v : DWord) : Stored :=
  let r := s.ctxAt c
  match i with
  | 0 =>
    if !r.valid then
      (s.mapCtx c (fun x => { x with valid := v.getLsbD 63, priv := v.getLsbD 62, vfid := bitsOf v 56 6, root := bitsOf v 0 40 }), true)
    else if !v.getLsbD 63 then (if s.ctxInUse c then (s, false) else (s.dropCtx c, true))
    else (s, r.priv = v.getLsbD 62 && r.vfid = bitsOf v 56 6 && r.root = bitsOf v 0 40)
  | 1 => (s.mapCtx c (fun x => { x with qlim := bitsOf v 0 16 }), true)
  | 2 =>
    if !r.valid then (s.mapCtx c (fun x => { x with cbase := bitsOf v 0 16, ccnt := bitsOf v 16 17 }), true)
    else (s, r.cbase = bitsOf v 0 16 && r.ccnt = bitsOf v 16 17)
  | 3 =>
    if !r.valid then (s.mapCtx c (fun x => { x with nbase := bitsOf v 0 12, ncnt := bitsOf v 12 13 }), true)
    else (s, r.nbase = bitsOf v 0 12 && r.ncnt = bitsOf v 12 13)
  | _ => (s, true)

/-! ### Host queue records (R331, R374, R376) -/

/-- The RW fields of a host queue record's second doubleword. -/
def HostQueue.control (q : HostQueue) (v : DWord) : HostQueue :=
  { q with prio := BitVec.ofNat 2 (bitsOf v 0 2), audit := BitVec.ofNat 5 (bitsOf v 8 5), ctx := bitsOf v 16 16,
           watchdog := BitVec.ofNat 32 (bitsOf v 32 32) }

/-- A store to a host queue record: valid and suspended are taken at any time, the rest while the record is not valid. A field of 13 to 15 for k - 4,
which R265 does not give, makes a ring of 2^17 to 2^19 packets (DESIGN CHOICE, log 99). -/
def State.storeQueue (s : State) (q i : Nat) (v : DWord) : Stored :=
  let r := s.queueAt q
  match i with
  | 0 =>
    let ring := v &&& 0x1FFFFFFFFFFF000#64
    let k := 4 + bitsOf v 0 4
    if !r.valid then (s.mapQueue q (fun x => { x with ring := ring, k := k }), true) else (s, r.ring = ring && r.k = k)
  | 1 =>
    let s1 := if r.valid then s else s.mapQueue q (fun x => x.control v)
    (s1.after (execQueueRecordWrite q (v.getLsbD 3) (v.getLsbD 2) s1), !r.valid || !v.getLsbD 3 || r = r.control v)
  | _ => (s, true)

/-! ### Operator slots, beds and scratchpad mappings (R332 to R334) -/

/-- Whether every granule of a window lies in a channel of a slice (R333). -/
def windowHome (slice first pages : Nat) : Bool := (List.range pages).all (fun i => homeSlice (4096 * (first + 192 * i)) = slice
  && decide (4096 * (first + 192 * i) < dramTop))

/-- A store to an operator slot record: UNINST removes the operator; a store that would change valid while INST is 1, or change the fields
of a valid record, is refused, and so is setting valid with plots that another holds or with a granule of another slice. Valid may be cleared while
an installation is in progress, when INST reads 0; the other fields stand while the slot holds its operator (DESIGN CHOICE, log 93). -/
def State.storeSlot (s : State) (slice n i : Nat) (v : DWord) : Stored :=
  let c := s.sliceAt slice
  let r := c.slot n
  match i with
  | 0 =>
    let same : Bool := r.plots = BitVec.ofNat 8 (bitsOf v 48 8) && r.ctx = bitsOf v 32 16
    let s1 := if v.getLsbD 60 && (r.installing || r.op.isSome) then s.after (execOpslotUninst slice n s) else s
    if r.op.isSome && !r.installing then (s1, v.getLsbD 63 = r.valid && same)
    else if r.valid && v.getLsbD 63 then (s1, same)
    else if r.valid then (s1.mapSlot slice n (fun q => { q with valid := false }), true)
    else if r.op.isSome then (if same then s1.mapSlot slice n (fun q => { q with valid := v.getLsbD 63 }) else s1, same)
    else
      let plots : Byte := BitVec.ofNat 8 (bitsOf v 48 8)
      if v.getLsbD 63 && (!(plotsOf plots).all (fun p => c.plotFree n p) || !windowHome slice r.applyFirst r.applyPages
          || !windowHome slice r.resultFirst r.resultPages) then (s1, false)
      else (s1.mapSlot slice n (fun q => { q with valid := v.getLsbD 63, plots := plots, ctx := bitsOf v 32 16 }), true)
  | 1 =>
    if r.valid || r.op.isSome then (s, r.applyFirst = bitsOf v 0 27 && r.applyPages = bitsOf v 32 8 + 1)
    else (s.mapSlot slice n (fun q => { q with applyFirst := bitsOf v 0 27, applyPages := bitsOf v 32 8 + 1 }), true)
  | 2 =>
    if r.valid || r.op.isSome then (s, r.resultFirst = bitsOf v 0 27 && r.resultPages = bitsOf v 32 8 + 1)
    else (s.mapSlot slice n (fun q => { q with resultFirst := bitsOf v 0 27, resultPages := bitsOf v 32 8 + 1 }), true)
  | _ => (s, true)

/-- A mapping entry's valid bit cleared: a live mapping is written back and then removed, and its valid bit reads 1 until then (R172, R332;
log 89). -/
def State.clearMapping (s : State) (ctx e : Nat) : State :=
  let live := s.cores.findSome? (fun p => (p.2.mappings.find? (fun x => x.1 = ctx && x.2.1 = e)).map (fun x => (p.1, x.2.2)))
  let mark (s : State) (f : MappingEntry → MappingEntry) : State :=
    s.mapHub (fun h => { h with mappings := h.mappings.update (64 * ctx + e) f })
  match live with
  | none => mark s (fun m => { m with valid := false, removing := false })
  | some (core, g) =>
    match s.unmapOne core (ctx, e, g) with
    | .ok s1 => mark s1 (fun m => { m with valid := false, removing := false })
    | .error (.wait r, _) => (mark s (fun m => { m with removing := true })).request r
    | .error _ => s

/-- MAPPING_VALID_CLEAR. -/
def execMappingValidClear (ctx entry : Nat) (s : State) : Out := .next (s.clearMapping ctx entry)

/-- A store to a scratchpad mapping entry (R332). -/
def State.storeMapping (s : State) (n i : Nat) (v : DWord) : Stored :=
  let m := s.hub.mappings.get .none n
  let put (x : MappingEntry) : State := s.mapHub (fun h => { h with mappings := h.mappings.set n x })
  let m' : MappingEntry := match i with
    | 0 => { m with va := 4096 * bitsOf v 12 45 }
    | 1 => { m with dispatch := bitsOf v 0 32, glin := bitsOf v 32 32 }
    | 2 => { m with pages := bitsOf v 0 7 + 1, offset := bitsOf v 20 19 }
    | _ => m
  if !m.valid then (put (if i = 0 then { m' with valid := v.getLsbD 63 } else m'), true)
  else if i = 0 && !v.getLsbD 63 then (s.clearMapping (n / 64) (n % 64), true)
  else (s, m = m')

/-! ### Bias (R335, R385) -/

/-- Eight bytes stored to the bias table: exposed is taken, unless it would leave a region in host bias unexposed. -/
def State.storeBias (s : State) (first : Nat) (v : DWord) : Stored :=
  (List.range 8).foldl (fun (r : Stored) i =>
    let b := r.1.hub.bias.get .none (first + i)
    let e := v.getLsbD (8 * i)
    if b.exposed && b.host && !e then (r.1, false)
    else if b.exposed = e then r
    else (r.1.mapHub (fun h => { h with bias := h.bias.set (first + i) { b with exposed := e } }), r.2)) (s, true)

/-- A flip begun: busy is set until every line is done (R385). -/
def State.startFlip (s : State) (region : Nat) (toHost : Bool) : Stored :=
  let b := s.hub.bias.get .none region
  if 147455 < region || !b.exposed || b.busy then (s, false)
  else if b.host = toHost then (s, true)
  else (s.mapHub (fun h => { h with bias := h.bias.set region { b with busy := true, toHost := toHost } }), true)

/-- BIAS_TO_DEVICE. -/
def execBiasToDevice (region : Nat) (s : State) : Out := .next (State.counted (s.startFlip region false) 0)

/-- BIAS_TO_HOST. -/
def execBiasToHost (region : Nat) (s : State) : Out := .next (State.counted (s.startFlip region true) 0)

/-- A store to the bias command register (R385). -/
def State.storeFlip (s : State) (v : DWord) : Stored :=
  let op := bitsOf v 32 8
  if bitsOf v 40 24 ≠ 0 || bitsOf v 18 14 ≠ 0 || (op ≠ 1 && op ≠ 2) then (s, false) else s.startFlip (bitsOf v 0 18) (op = 2)

/-! ### Placement parameters (R336) -/

/-- The low doubleword of a slice set staged. -/
def State.storeMaskLow (s : State) (f i : Nat) (v : DWord) : State := s.mapFn f (fun x => { x with staged := x.staged.set i v })

/-- The high doubleword of a slice set, which changes the whole set. -/
def State.storeMaskHigh (s : State) (f i : Nat) (v : DWord) : Stored :=
  if bitsOf v 32 32 ≠ 0 then (s, false)
  else (s.mapFn f (fun x =>
    let low : DWord := (x.staged.find i).getD ((x.maskOf i).setWidth 64)
    { x with sets := x.sets.set i (BitVec.ofNat 96 (low.toNat + 2 ^ 64 * bitsOf v 0 32)), staged := x.staged.erase i }), true)

/-- PLACEMENT_MASK_LOW_WRITE. -/
def execPlacementMaskLowWrite (function set : Nat) (value : DWord) (s : State) : Out := .next (s.storeMaskLow function set value)

/-- PLACEMENT_MASK_HIGH_WRITE. -/
def execPlacementMaskHighWrite (function set : Nat) (value : DWord) (s : State) : Out :=
  .next (State.counted (s.storeMaskHigh function set value) 0)

/-- A store to placement parameters. -/
def State.storePlacement (s : State) (f b : Nat) (v : DWord) : Stored :=
  if b < 128 then (s.mapFn f (fun x => { x with seeds := x.seeds.set (b / 8) v }), true)
  else if b < 384 then
    if b % 16 = 0 then (s.storeMaskLow f ((b - 128) / 16) v, true) else s.storeMaskHigh f ((b - 128) / 16) v
  else (s, true)

/-! ### Islands (R15 to R17, R392) -/

/-- Whether an L1 holds a dirty word. -/
def Core.hasDirty (c : Core) : Bool := c.l1.any (fun l => l.dirty ≠ 0#32)

/-- Whether a slice's island holds no state of any context (R16). -/
def State.sliceIdle (s : State) (sl : Nat) : Bool :=
  (s.sliceAt sl).cachePlots.length = 8 && !s.mem.copies.any (fun p => p.1 % 128 = sl && (p.2.pinned || p.2.dirty ≠ 0#32))

/-- Whether an island is gated. -/
def State.gatedAt (s : State) (n : Nat) : Bool := (s.platform.islands.get .none n).gated

/-- Whether R16 and R392 allow an island to be gated. For the network ports, 480 to 491, and the Plovdy islands, 492 to 507, no rule gives a condition of its own, and
the model takes them to hold no state of a context at any time (DESIGN CHOICE, log 51). -/
def State.mayGate (s : State) (n : Nat) : Bool :=
  if s.platform.safe then false
  else if n < 192 then (s.residents n).isEmpty && !(s.coreAt n).hasDirty
  else if n < 384 then (s.residents (n - 192)).isEmpty && (s.coreAt (n - 192)).engine.owner.isNone
  else if n < 480 then s.sliceIdle (n - 384)
  else if n < 508 then true
  else
    let die := n - 508
    (List.range 48).all (fun i => s.gatedAt (48 * die + i) && s.gatedAt (192 + 48 * die + i)) && (List.range 24).all (fun i => s.gatedAt (384 + 24 * die + i))

/-- An island gated: its clean lines and translations are lost with its supply (R16). -/
def State.gate (s : State) (n : Nat) : State :=
  let s1 := s.setIsland n (fun i => { i with gated := true })
  if n < 192 then s1.mapCore n (fun c => { c with l1 := [], tlb := [] })
  else if 384 ≤ n && n < 480 then (s1.mem.linesOf (n - 384)).foldl (fun (s : State) p => s.mapMem (fun m => m.evictCopy (p.1 / 128) (n - 384))) s1
  else s1

/-- A request of an operating point; a request for another point wakes a gated island, and a request to gate takes effect where it may. In the
safe state no island starts (R391). -/
def State.storeIsland (s : State) (n : Nat) (r : BitVec 2) : Stored :=
  if 512 ≤ n || (480 ≤ n && n < 508 && r ≠ 0 && r ≠ 3) then (s, false)
  else
    let was := (s.platform.islands.get .none n).current
    let s0 := s.setIsland n (fun i => { i with request := r })
    let s1 := if r = 3 then s0 else s0.wake n
    let now := (s1.platform.islands.get .none n).current
    let s2 := if was = now then s1 else s1.logEvent (.throttle n (BitVec.ofNat 2 now))
    (if r = 3 && s2.mayGate n then s2.gate n else s2, true)

/-- ISLAND_REQUEST_NOMINAL. -/
def execIslandRequestNominal (island : Nat) (s : State) : Out := .next (State.counted (s.storeIsland island 0) 0)

/-- ISLAND_REQUEST_HALF. -/
def execIslandRequestHalf (island : Nat) (s : State) : Out := .next (State.counted (s.storeIsland island 1) 0)

/-- ISLAND_REQUEST_QUARTER. -/
def execIslandRequestQuarter (island : Nat) (s : State) : Out := .next (State.counted (s.storeIsland island 2) 0)

/-- ISLAND_REQUEST_GATE. -/
def execIslandRequestGate (island : Nat) (s : State) : Out := .next (State.counted (s.storeIsland island 3) 0)

/-- ISLAND_WAKE (R16). -/
def execIslandWake (island : Nat) (s : State) : Out := .next (s.wake island)

/-- Whether the management block may limit an island to a point: the matrix engine islands come first, so that any other is held back only as far
as each of them is, or is gated (R17; the reading of "first" is a DESIGN CHOICE, log 51). -/
def State.mayLimit (s : State) (island : Nat) (limit : BitVec 2) : Bool :=
  (192 ≤ island && island < 384)
    || (List.range 192).all (fun i => s.gatedAt (192 + i) || decide (limit.toNat ≤ (s.platform.islands.get .none (192 + i)).limit.toNat))

/-- THERMAL_THROTTLE: the management block's limit of an island changes, and the change is logged. No island is limited below quarter rate (R15,
R17). -/
def execThermalThrottle (island : Nat) (limit : BitVec 2) (s : State) : Out :=
  if 512 ≤ island || limit = 3 || (s.platform.islands.get .none island).limit = limit || !s.mayLimit island limit then .next s
  else .next ((s.setIsland island (fun i => { i with limit := limit })).logEvent (.throttle island limit))

/-! ### Retest and attestation (R391, R394) -/

/-- The health word (R391). -/
def healthWord (state cls index syndrome : Nat) : DWord := field 62 2 state ||| field 56 6 cls ||| field 32 16 index ||| field 0 32 syndrome

/-- The device in the safe state: the health word names the failing block, and no island is started: each reads as gated, and the cores' counts
stand (R13, R391). -/
def State.enterSafe (s : State) (f : TestFailure) : State :=
  { s with cores := s.cores.mapValues (fun c k => { k with cyc := s.cycOf c, cycAt := s.cycles }) }.mapPlatform (fun p => { p with
    health := healthWord 2 f.cls.toNat f.index.toNat f.syndrome.toNat, selfTest := false, safe := true, retesting := none
    islands := (List.range 512).map (fun n => (n, { p.islands.get .none n with gated := true })) })

/-- A store to the retest register: self-test of a suspect core begins. -/
def State.storeRetest (s : State) (core : Nat) : Stored :=
  if core < 192 && (s.coreAt core).suspect && !s.platform.safe then
    (s.mapPlatform (fun p => { p with health := healthWord 0 0 0 0, retesting := some core }), true)
  else (s, false)

/-- CORE_RETEST: self-test of a suspect core, from the store to the register or begun before; a core that passes may be placed on again. -/
def execCoreRetest (core : Nat) (failure : Option TestFailure) (s : State) : Out :=
  if !(s.coreAt core).suspect || s.platform.safe || !(s.platform.retesting = none || s.platform.retesting = some core) then .next s
  else
    match failure with
    | some f => .next (s.enterSafe f)
    | none => .next ((s.mapCore core (fun c => { c with suspect := false })).mapPlatform (fun p => { p with
        health := healthWord 1 0 0 0, retesting := none }))

/-- Eight bytes of the nonce stored; not while a report is being made. -/
def State.storeNonce (s : State) (i : Nat) (v : DWord) : Stored :=
  if s.platform.report.isSome then (s, false)
  else
    (s.mapPlatform (fun p => { p with
      nonce := (List.range 32).map (fun j => if j / 8 = i then v.extractLsb' (8 * (j % 8)) 8 else p.nonce.getD j 0) }), true)

/-- The 32 bytes of a digest. -/
def digestBytes (d : BitVec 256) : List Byte := leBytes 32 d.toNat

/-- The attestation report (R394). -/
def Platform.reportBytes (p : Platform) : List Byte :=
  let body := leBytes 4 1 ++ leBytes 4 p.measurements.length ++ (List.range 32).map (fun i => p.nonce.getD i 0)
    ++ digestBytes (Config.sha3 identityKeyBytes)
    ++ (p.measurements.map (fun m => leBytes 4 m.1.toNat ++ leBytes 4 m.2.1.toNat ++ digestBytes m.2.2)).flatten
  body ++ (List.range 2420).map (Config.identitySign body)

/-- A store of the report buffer's address, refused while a report is being made, and where the buffer is not in DRAM or not a multiple of 4,096 (R394;
DESIGN CHOICE, log 54). -/
def State.storeReport (s : State) (pa : Nat) : Stored :=
  if s.platform.report.isSome || pa % 4096 ≠ 0 || dramTop < pa + s.platform.reportBytes.length then (s, false)
  else (s.mapPlatform (fun p => { p with report := some pa, done := false }), true)

/-- ATTESTATION_REQUEST. -/
def execAttestationRequest (pa : Nat) (s : State) : Out := .next (State.counted (s.storeReport pa) 0)

/-- ATTESTATION_REPORT_DONE: the report stands in memory, DONE is set and BUSY cleared; it waits for lines that the host holds (R215, R394). -/
def execAttestationReportDone (s : State) : Out :=
  match s.platform.report with
  | none => .next s
  | some pa =>
    let bs := s.platform.reportBytes
    if (List.range (bs.length / 128 + 1)).any (fun i => (s.hostBlocks (pa + 128 * i) true false).isSome) then .next s
    else
      .next (((lineRuns pa bs.length).foldl (fun (s : State) r => s.homeWrite (pa + r.1) ((bs.drop r.1).take r.2)) s).mapPlatform (fun p =>
        { p with report := none, done := true }))

/-! ### The whole window (R330) -/

/-- Whether a writer may store to an offset: system software anywhere, a privileged context to the host queue and function records of its
function, and any context to the doorbell pages that it maps. -/
def State.mayStore (s : State) (w : MgmtWriter) (off : Nat) : Bool :=
  match w with
  | .system => true
  | .other => false
  | .context c =>
    decide (off < 0x40000)
      || (decide (0x10000000 ≤ off) && decide (off < 0x10001000) && s.mayWriteFn c ((off - 0x10000000) / 64))
      || (decide (0x12000000 ≤ off) && decide (off < 0x12200000) && s.mayWriteFn c ((off - 0x12000000) / 64 / 512))

/-- The function whose record counts a writer's refused stores (R330). -/
def State.writerFn (s : State) (w : MgmtWriter) : Nat := match w with | .context c => s.fnOf c | _ => 0

/-- A store of a doubleword to an offset by a writer that may make it. Read-only doublewords and offsets that no rule names take nothing. -/
def State.storeWindow (s : State) (off : Nat) (v : DWord) : Stored :=
  if off < 0x40000 then (s.after (execKickRegisterWrite (512 * (off / 4096) + off % 4096 / 8) v s), true)
  else if off < 0x10000000 then (s, true)
  else if off < 0x10001000 then s.storeFn ((off - 0x10000000) / 64) (off % 64 / 8) v
  else if off < 0x11000000 then (s, true)
  else if off < 0x11400000 then s.storeCtx ((off - 0x11000000) / 64) (off % 64 / 8) v
  else if off < 0x12000000 then (s, true)
  else if off < 0x12200000 then s.storeQueue ((off - 0x12000000) / 64) (off % 64 / 8) v
  else if off < 0x13000000 then (s, true)
  else if off < 0x13006000 then s.storeSlot ((off - 0x13000000) / 256) ((off - 0x13000000) / 32 % 8) (off % 32 / 8) v
  else if off < 0x13100000 then (s, true)
  else if off < 0x13103000 then
    let sl := (off - 0x13100000) / 128
    let b := (off - 0x13100000) / 16 % 8
    (if off % 16 = 0 && v.getLsbD 62 then s.after (execBedDestroy sl b s) else s, true)
  else if off < 0x14000000 then (s, true)
  else if off < 0x1C000000 then s.storeMapping ((off - 0x14000000) / 32) (off % 32 / 8) v
  else if off < 0x1D000000 then (s, true)
  else if off < 0x1D024000 then s.storeBias (off - 0x1D000000) v
  else if off = 0x1D100000 then s.storeFlip v
  else if off < 0x1E000000 then (s, true)
  else if off < 0x1E008000 then s.storePlacement ((off - 0x1E000000) / 512) (off % 512) v
  else if off < 0x1F000000 then (s, true)
  else if off < 0x1F001000 then s.storeIsland ((off - 0x1F000000) / 8) (v.setWidth 2)
  else if off = 0x1F100008 then s.storeRetest v.toNat
  else if 0x1F200000 ≤ off && off < 0x1F200020 then s.storeNonce ((off - 0x1F200000) / 8) v
  else if off = 0x1F200020 then s.storeReport v.toNat
  else (s, true)

/-- A store of a writer to the bytes `m` of a doubleword of hub register space, counted where it is refused. The bytes that it does not name keep what
the doubleword reads as when the store is performed (log 19). -/
def State.storeHub (s : State) (w : MgmtWriter) (off : Nat) (v : DWord) (m : Byte := 0xFF) : State :=
  if s.mayStore w off then State.counted (s.storeWindow off (mergeBytes (s.hubDword off) v m)) (s.writerFn w) else s.refuse (s.writerFn w)

/-- Bytes stored to hub register space, in ascending order of its doublewords. -/
def State.storeHubBytes (s : State) (w : Nat → MgmtWriter) (off : Nat) (bs : List Byte) : State :=
  let first := off / 8
  (List.range ((off + bs.length + 7) / 8 - first)).foldl (fun (s : State) i =>
    let p := hubPiece (8 * (first + i)) off bs
    s.storeHub (w (8 * (first + i))) (8 * (first + i)) p.1 p.2) s

/-- MGMT_REGISTER_WRITE (R330). -/
def execMgmtRegisterWrite (writer : MgmtWriter) (offset : Nat) (value : HubStore) (s : State) : Out :=
  .next (s.storeHub writer offset value.value value.bytes)

end Sys2Proof.Machine
end

