-- ==== Sys2Proof/Machine/HostPort.lean ====
section
/-! DEFINITION. The host: its accesses to device memory, snoop filters, bias flips, its snoops and answers under CXL.cache, and device atomics
on host memory (R215, R216, R221, R224, R228, R234, R273, R384 to R388). -/
namespace Sys2Proof.Machine

/-! ### Operator windows as the host sees them (R224, R228, R234, R273) -/

/-- The operator slot whose window holds a granule: slice, slot, whether the window is the apply window, and the page of it. -/
def State.windowAt (s : State) (pa : Nat) : Option (Nat × Nat × Bool × Nat) :=
  let sl := homeSlice pa
  (List.range 8).findSome? (fun n =>
    let r := (s.sliceAt sl).slot n
    if !r.valid then none
    else
      match windowPage (pa / 4096) r.applyFirst r.applyPages, windowPage (pa / 4096) r.resultFirst r.resultPages with
      | some p, _ => some (sl, n, true, p)
      | none, some p => some (sl, n, false, p)
      | none, none => none)

/-- An answer to the host; none is a CXL.mem error. -/
def State.answer (s : State) (pa : Nat) (x : Option (List Byte)) : State :=
  { s with port := { s.port with answers := s.port.answers ++ [(pa, x)] } }

/-- A refused host access to a window: a record with source 1 goes to the function that owns the operator slot (R234, R273). -/
def State.refuseHost (s : State) (sl n : Nat) (c : Cause) (acc : Byte) (pa : Nat) : State :=
  (s.addRecord ⟨s.fnOf ((s.sliceAt sl).slot n).ctx, 0, acc, 1, c, BitVec.ofNat 64 pa, 0, 0, 0, 0, 0, 0⟩ false).1

/-- The operator of a slot as a function's host accesses find it: none unless the slot's context is the function's (R333). -/
def State.hostOperator (s : State) (fn sl n : Nat) : Option Operator :=
  let r := (s.sliceAt sl).slot n
  if s.fnOf r.ctx = fn then r.installed else none

/-- A host write within one 128-byte line of a window page: one write, with its byte mask, to an apply slot (R228), or it is refused. No
translation makes it, so no invalidation waits for it (R328). -/
def State.hostWindowWrite (s : State) (fn sl n : Nat) (isApply : Bool) (page pa : Nat) (bs : List (Option Byte)) : State :=
  let off := page * 4096 + pa % 4096
  match s.hostOperator fn sl n with
  | none => s.refuseHost sl n .noOperator 0x02 pa
  | some o =>
    if !isApply || o.s * o.astride < off + bs.length then s.refuseHost sl n .windowKind 0x02 pa
    else
      (s.wakeSlice sl).mapSlice sl (fun c => { c with writes := c.writes ++
        [⟨.other, 65536, 0, n, off, (List.range bs.length).filterMap (fun i => (bs.getD i none).map (fun b => (i, b))), []⟩] })

/-- A host read within one line of a window page, or its refusal, which answers an error and makes no record: R234 and R273 name host writes
alone. -/
def State.hostWindowRead (s : State) (fn sl n : Nat) (isApply : Bool) (page pa len : Nat) : Option (List Byte) :=
  let off := page * 4096 + pa % 4096
  (s.hostOperator fn sl n).bind (fun o =>
    if isApply || o.s * o.qstride < off + len then none else some ((List.range len).map (fun i => o.resultByte (off + i))))

/-! ### Snoop filters (R221) -/

/-- The entries of a line's snoop-filter set, one of 1,024 in its slice, oldest first. -/
def Mem.snoopSet (m : Mem) (line : Nat) : List SnoopEntry :=
  m.snoop.filter (fun e => e.slice = homeSlice (128 * line) && Config.snoopSet e.line % 1024 = Config.snoopSet line % 1024)

/-- A back-invalidate sent for a line. -/
def Mem.backInvalidate (m : Mem) (line : Nat) : Mem :=
  { m with snoop := m.snoop.map (fun e => if e.line = line then { e with invalidating := true } else e) }

/-- A line that the host now caches entered in the snoop filter, where its set has room or the line an entry that is not being invalidated;
else the access waits, and the oldest entry of the set is invalidated unless another of the set is already. -/
def Mem.track (m : Mem) (line : Nat) (modified : Bool) : Mem × Bool :=
  match m.snoopOf line with
  | some e =>
    if e.invalidating then (m, false)
    else ({ m with snoop := m.snoop.map (fun x => if x.line = line then { x with modified := x.modified || modified } else x) }, true)
  | none =>
    let set := m.snoopSet line
    if set.length < 8 then ({ m with snoop := m.snoop ++ [⟨homeSlice (128 * line), line, modified, false⟩] }, true)
    else if set.any (fun e => e.invalidating) then (m, false)
    else
      match set.head? with
      | some e => (m.backInvalidate e.line, false)
      | none => (m, false)

/-! ### Host accesses (R215, R384, R386) -/

/-- The regions of 2 MiB that a byte range touches. -/
def regionsOf (pa n : Nat) : List Nat := (List.range ((pa + n - 1) / 2097152 + 1 - pa / 2097152)).map (fun i => pa / 2097152 + i)

/-- The bias entry of a region. -/
def State.biasAt (s : State) (r : Nat) : BiasEntry := s.hub.bias.get .none r

/-- Whether the host may access a byte range: DRAM in exposed regions, outside the safe state (R384, R391). -/
def State.hostMayAccess (s : State) (pa n : Nat) : Bool :=
  decide (0 < n) && decide (pa + n ≤ dramTop) && !s.platform.safe && (regionsOf pa n).all (fun r => (s.biasAt r).exposed)

/-- Whether a flip of a region that a byte range touches is in progress (R386). -/
def State.flipping (s : State) (pa n : Nat) : Bool := (regionsOf pa n).any (fun r => (s.biasAt r).busy)

/-- The lines that a byte range touches. -/
def linesOf (pa n : Nat) : List Nat := (List.range ((pa + n - 1) / 128 + 1 - pa / 128)).map (fun i => pa / 128 + i)

/-- The lines of a cached host read in a region of host bias: each is entered in the snoop filter, and the device's copies give up their
dirty words, or with `exclusive` are invalidated (R220, R221). -/
def State.trackLines (s : State) (lines : List Nat) (exclusive : Bool) : State × Bool :=
  lines.foldl (fun (r : State × Bool) line =>
    let (m, ok) := r.1.mem.track line exclusive
    if ok then (r.1.mapMem (fun _ => if exclusive then m.flushLine line else m.recallLine line), r.2)
    else (r.1.mapMem (fun _ => m), false)) (s, true)

/-- The runs of present bytes of a masked write: offset and bytes. -/
def byteRuns (i : Nat) (bs : List (Option Byte)) : List (Nat × List Byte) :=
  match bs with
  | [] => []
  | none :: r => byteRuns (i + 1) r
  | some b :: r =>
    match byteRuns (i + 1) r with
    | (j, xs) :: rest => if j = i + 1 then (i, b :: xs) :: rest else (i, [b]) :: (j, xs) :: rest
    | [] => [(i, [b])]

/-- The part of a host read that lies within one line: from a window, or from the home slice. -/
def State.hostLineRead (s : State) (fn pa n : Nat) : Option (List Byte) :=
  match s.windowAt pa with
  | some (sl, slot, isApply, page) => s.hostWindowRead fn sl slot isApply page pa n
  | none => some (s.mem.bytes pa n)

/-- The part of a host write that lies within one line. -/
def State.hostLineWrite (s : State) (fn pa : Nat) (bs : List (Option Byte)) : State :=
  match s.windowAt pa with
  | some (sl, slot, isApply, page) => s.hostWindowWrite fn sl slot isApply page pa bs
  | none => (byteRuns 0 bs).foldl (fun (s : State) r => s.homeWrite (pa + r.1) r.2) s

/-- Whether an access of the host through a function's BAR0 names hub register space that the BAR maps: all of it for function 0, and its doorbell page
for a virtual function (R384, R389). -/
def barMaps (fn off n : Nat) : Bool :=
  decide (0 < n) && (fn = 0 || (decide (fn < 64) && off / 4096 = fn && (off + n - 1) / 4096 = fn)) && decide (off + n ≤ hubTop - hubBase)

/-- A host read served in hub register space, or at the home slices of its lines, or not yet. -/
def State.serveRead (s : State) (fn pa n : Nat) (cached exclusive : Bool) : State × Bool :=
  let read (s0 : State) : State :=
    let s := (linesOf pa n).foldl (fun (s : State) l => s.atHome l) s0
    s.answer pa ((lineRuns pa n).foldl (fun (o : Option (List Byte)) r =>
    o.bind (fun out => (s.hostLineRead fn (pa + r.1) r.2).map (fun bs => out ++ bs))) (some []))
  if rangeOf pa = .hub then (s.answer pa (if barMaps fn (pa - hubBase) n then some (s.hubBytes (pa - hubBase) n) else none), true)
  else if !s.hostMayAccess pa n then (s.answer pa none, true)
  else if s.flipping pa n then (s, false)
  else
    match s.trackLines ((linesOf pa n).filter (fun l => cached && (s.windowAt (128 * l)).isNone && (s.biasAt (l / 16384)).host)) exclusive with
    | (s1, true) => (read s1, true)
    | (s1, false) => (s1, false)

/-- The host's own write to host memory: once the device holds no copy of its lines, which the host's snoops take back first (R216). -/
def State.hostOwnWrite (s : State) (pa : Nat) (bs : List (Option Byte)) : State × Bool :=
  if (linesOf pa bs.length).all (fun l => (s.mem.grant l).isNone) then
    (s.mapMem (fun m => (byteRuns 0 bs).foldl (fun (m : Mem) r => m.setBytes (pa + r.1) r.2) m), true)
  else (s, false)

/-- Who stores to hub register space by way of a function's BAR0: system software, or a virtual function in its own doorbell page (R330,
R389). -/
def hostWriter (fn off : Nat) : MgmtWriter := if fn = 0 || (off < 0x40000 && off / 4096 = fn) then .system else .other

/-- The present bytes of a masked write to hub register space stored. -/
def State.storeHubMasked (s : State) (fn off : Nat) (bs : List (Option Byte)) : State :=
  (byteRuns 0 bs).foldl (fun (s : State) r => s.storeHubBytes (hostWriter fn) (off + r.1) r.2) s

/-- A host write performed in hub register space, or at the home slices of its lines, or not yet; one that is refused changes nothing. -/
def State.serveWrite (s : State) (fn pa : Nat) (bs : List (Option Byte)) : State × Bool :=
  if rangeOf pa = .host then s.hostOwnWrite pa bs
  else if rangeOf pa = .hub then
    (if barMaps fn (pa - hubBase) bs.length then s.storeHubMasked fn (pa - hubBase) bs else s.answer pa none, true)
  else if !s.hostMayAccess pa bs.length then (s.answer pa none, true)
  else if s.flipping pa bs.length then (s, false)
  else ((lineRuns pa bs.length).foldl (fun (s : State) r => s.hostLineWrite fn (pa + r.1) ((bs.drop r.1).take r.2)) s, true)

/-- The new value of an AtomicOp of the host (R384). -/
def hostAtomicNew (op : HostAtomic) (size old operand compare : Nat) : Nat :=
  match op with
  | .fetchAdd => (old + operand) % 2 ^ (8 * size)
  | .swap => operand % 2 ^ (8 * size)
  | .cas => if old = compare % 2 ^ (8 * size) then operand % 2 ^ (8 * size) else old

/-- An AtomicOp of the host performed as completer, on hub register space or on exposed memory; the answer is the old value (R384). -/
def State.serveAtomic (s : State) (fn : Nat) (op : HostAtomic) (pa size : Nat) (operand compare : DWord) : State × Bool :=
  if (size ≠ 4 && size ≠ 8) || pa % size ≠ 0 then (s.answer pa none, true)
  else if rangeOf pa = .hub then
    let off := pa - hubBase
    let old := s.hubBytes off size
    let new := hostAtomicNew op size (leNat old) operand.toNat compare.toNat
    if barMaps fn off size then ((s.storeHubBytes (hostWriter fn) off (leBytes size new)).answer pa (some old), true)
    else (s.answer pa none, true)
  else if !s.hostMayAccess pa size then (s.answer pa none, true)
  else if s.flipping pa size then (s, false)
  else
    match s.windowAt pa with
    | some (sl, slot, _, _) =>
      ((s.refuseHost sl slot (if (s.hostOperator fn sl slot).isNone then .noOperator else .windowKind) 0x08 pa).answer pa none, true)
    | none =>
      let old := s.mem.bytes pa size
      ((s.homeWrite pa (leBytes size (hostAtomicNew op size (leNat old) operand.toNat compare.toNat))).answer pa (some old), true)

/-! ### The Plovdy cluster (R390)

A hart is a coherent agent of die 4: its accesses go through the cluster's L2, the proxy slices of that die, and to hub register space as system
software's. -/

/-- The path of an access of the cluster. -/
def clusterPath (pa : Nat) : Path := ⟨true, some (proxySlice (homeSlice pa) 4), 1, false⟩

/-- Whether a byte range lies in one range of memory. -/
def inMemory (pa n : Nat) : Bool :=
  decide (0 < n) && (rangeOf pa = .dram || rangeOf pa = .host) && rangeOf (pa + n - 1) = rangeOf pa

/-- An access of the cluster made once no line of it waits for the host, or not yet. -/
def State.clusterAccess (s : State) (pa n : Nat) (write : Bool) (f : State → State) : State × Bool :=
  match (lineRuns pa n).findSome? (fun r => s.hostBlocks (pa + r.1) write true) with
  | some (.wait r) => (s.request r, false)
  | some _ => (s, false)
  | none => (f s, true)

/-- The part of a hart's load that lies within one line, put after the parts before it. -/
def State.clusterRead (fn pa : Nat) (p : State × Option (List Byte)) (r : Nat × Nat) : State × Option (List Byte) :=
  match p.1.windowAt (pa + r.1) with
  | some (sl, slot, isApply, page) =>
    (p.1, p.2.bind (fun out => (p.1.hostWindowRead fn sl slot isApply page (pa + r.1) r.2).map (fun bs => out ++ bs)))
  | none =>
    let path := clusterPath (pa + r.1)
    let s1 := (p.1.wakeFor (pa + r.1) path).bring (pa + r.1) path
    (s1, p.2.map (fun out => out ++ s1.mem.bytes (pa + r.1) r.2))

/-- A hart's load. -/
def State.serveLoad (s : State) (fn pa n : Nat) : State × Bool :=
  if rangeOf pa = .hub then (s.answer pa (some (s.hubBytes (pa - hubBase) n)), true)
  else if !inMemory pa n then (s.answer pa none, true)
  else
    s.clusterAccess pa n false (fun s =>
      let r := (lineRuns pa n).foldl (State.clusterRead fn pa) (s, some [])
      r.1.answer pa r.2)

/-- The part of a hart's store that lies within one line. -/
def State.clusterWrite (s : State) (fn pa : Nat) (bs : List (Option Byte)) : State :=
  match s.windowAt pa with
  | some (sl, slot, isApply, page) => s.hostWindowWrite fn sl slot isApply page pa bs
  | none => (byteRuns 0 bs).foldl (fun (s : State) r =>
      let path := clusterPath pa
      (s.wakeFor pa path).mergeAt (pa + r.1) r.2 path) s

/-- A hart's store. -/
def State.serveStore (s : State) (fn pa : Nat) (bs : List (Option Byte)) : State × Bool :=
  if rangeOf pa = .hub then (s.storeHubMasked 0 (pa - hubBase) bs, true)
  else if !inMemory pa bs.length then (s, true)
  else
    s.clusterAccess pa bs.length true (fun s =>
      (lineRuns pa bs.length).foldl (fun (s : State) r => s.clusterWrite fn (pa + r.1) ((bs.drop r.1).take r.2)) s)

/-- An atomic of a hart: its answer is the old value. -/
def State.serveAmo (s : State) (fn : Nat) (op : HostAtomic) (pa size : Nat) (operand compare : DWord) : State × Bool :=
  if rangeOf pa = .hub then s.serveAtomic 0 op pa size operand compare
  else if (size ≠ 4 && size ≠ 8) || pa % size ≠ 0 || !inMemory pa size || (s.windowAt pa).isSome then (s.answer pa none, true)
  else
    s.clusterAccess pa size true (fun s =>
      let old := s.mem.bytes pa size
      let new := leBytes size (hostAtomicNew op size (leNat old) operand.toNat compare.toNat)
      (s.clusterWrite fn pa (new.map some)).answer pa (some old))

/-- A host access served, or not yet. -/
def State.serve_ (s : State) (a : HostAccess) : State × Bool :=
  match a with
  | .read fn pa n cached exclusive => s.serveRead fn pa n cached exclusive
  | .write fn pa bs => s.serveWrite fn pa bs
  | .atomic fn op pa size x y => s.serveAtomic fn op pa size x y
  | .load fn pa n => s.serveLoad fn pa n
  | .store fn pa bs => s.serveStore fn pa bs
  | .amo fn op pa size x y => s.serveAmo fn op pa size x y

/-- A host access as it arrives: served, or made to wait at its home slice. -/
def State.arriveHost (s : State) (a : HostAccess) : Out :=
  match s.serve_ a with
  | (s1, true) => .next s1
  | (s1, false) => .next { s1 with port := { s1.port with waiting := s1.port.waiting ++ [a] } }

/-- The host accesses that wait tried again, in order. -/
def State.serveWaiting (s : State) : State :=
  s.port.waiting.foldl (fun (s : State) a =>
    match s.serve_ a with
    | (s1, true) => s1
    | (s1, false) => { s1 with port := { s1.port with waiting := s1.port.waiting ++ [a] } })
    { s with port := { s.port with waiting := [] } }

/-- Bytes of the extended capability in configuration space: the health word at offset 0x10, and what the manual does not give (R384, R391;
log 106). -/
def State.capabilityBytes (s : State) (fn off n : Nat) : List Byte :=
  (List.range n).map (fun i =>
    let b := off + i
    if 0x10 ≤ b && b < 0x18 then s.platform.health.extractLsb' (8 * (b - 0x10)) 8 else Config.capabilityByte fn b)

/-- Bytes of a register of the I3C target: the health word is register 0x00, 8 bytes, low byte first (R391; log 106). -/
def State.sidebandBytes (s : State) (register n : Nat) : List Byte :=
  (List.range n).map (fun i =>
    if register = 0 && i < 8 then s.platform.health.extractLsb' (8 * i) 8 else Config.sidebandByte register i)

/-- An access of a hart of the cluster, which does not run in the safe state (R390, R391). -/
def State.arriveHart (s : State) (a : HostAccess) : Out := if s.platform.safe then .next s else s.arriveHost a

/-- HOST_MEM_READ: a read of device memory or BAR0, of configuration space or the I3C target, which answer at any time, or a hart's load. -/
def execHostMemRead (at_ : HostAddr) (length : Nat) (cached exclusive : Bool) (s : State) : Out :=
  match at_.space with
  | .memory => s.arriveHost (.read at_.function at_.pa length cached exclusive)
  | .capability => .next (s.answer at_.pa (some (s.capabilityBytes at_.function at_.pa length)))
  | .sideband => .next (s.answer at_.pa (some (s.sidebandBytes at_.pa length)))
  | .cluster => s.arriveHart (.load at_.function at_.pa length)

/-- HOST_MEM_WRITE: of device memory, of BAR0, or of the host's own memory, whose lines the device may cache; or a hart's store. The health word takes
no write (R391). -/
def execHostMemWrite (at_ : HostAddr) (bytes : List (Option Byte)) (s : State) : Out :=
  match at_.space with
  | .memory => s.arriveHost (.write at_.function at_.pa bytes)
  | .capability => .next s
  | .sideband => .next s
  | .cluster => s.arriveHart (.store at_.function at_.pa bytes)

/-- HOST_ATOMICOP, or an atomic of a hart. Configuration space and the I3C target complete none. -/
def execHostAtomicop (op : HostAtomic) (at_ : HostAddr) (size : Nat) (operand compare : DWord) (s : State) : Out :=
  match at_.space with
  | .memory => s.arriveHost (.atomic at_.function op at_.pa size operand compare)
  | .capability => .next (s.answer at_.pa none)
  | .sideband => .next (s.answer at_.pa none)
  | .cluster => s.arriveHart (.amo at_.function op at_.pa size operand compare)

/-! ### Atomics that wait for the host (R45, R387, R388) -/

/-- What an atomic leaves of a team whose gang has ended meanwhile: it still waits, with the cause kept, or it has reached its instruction boundary
and ends (R45). -/
def State.endingAs (s : State) (u : Nat) (w : AtomicWait) : State :=
  match w.ending with
  | none => s
  | some c => s.mapTeam u (fun t => t.finish c)

/-- The atomic of a team gone on with from its first group. -/
def State.goOn (s : State) (u : Nat) (w : AtomicWait) : State :=
  (s.asTeam u (fun s => s.after (s.atomicGo w.op w.o w.record w.groups w.olds w.ending))).endingAs u w

/-- The line of the group that an atomic waits on. -/
def AtomicWait.line (w : AtomicWait) : Option Nat :=
  match w.groups with
  | g :: _ => (match g.place with | .home pa _ => some (pa / 128) | _ => none)
  | [] => none

/-- The group that an atomic waits on performed through the line that it waits for, and the atomic gone on with; it keeps waiting where the
host does not let it (R387). -/
def State.performWaiting (s : State) (u : Nat) (w : AtomicWait) : State :=
  match w.groups with
  | [] => s
  | g :: rest =>
    (s.asTeam u (fun s =>
      match s.performGroup w.op w.o g with
      | .ok (s1, more) => s1.after (s1.atomicGo w.op w.o w.record rest (w.olds ++ more) w.ending)
      | .error (.wait r, _) => s.request r
      | .error (e, _) => if w.ending.isSome then s.setTeam { s.team with status := .ready } else s.stopAt e)).endingAs u w

/-- The atomics that wait for a line gone on with, in the order of their teams. -/
def State.resumeAtomics (s : State) (line : Nat) : State :=
  s.teams.foldl (fun (s : State) p =>
    match (s.teamAt p.1).status with
    | .atomicOp w => if w.viaCache && w.line = some line then s.performWaiting p.1 w else s
    | _ => s) s

/-- An atomic whose first group cannot be performed: 0x52 (R388); a team whose gang has ended meanwhile ends (R45). -/
def State.failAtomic (s : State) (u : Nat) (w : AtomicWait) (cache : Nat) (io : BitVec 3) : State :=
  match w.groups, w.ending with
  | [], _ => s
  | _, some c => s.mapTeam u (fun t => { t with status := .ready }.finish c)
  | g :: _, none => s.asTeam u (fun s => s.stopAt (.host (hostUval g cache io)))

/-- The group that an atomic waits on, as the host has performed it from the value `old` (R194, R387). -/
def State.completeAtomic (s : State) (u : Nat) (w : AtomicWait) (old : Nat) : State :=
  match w.groups with
  | [] => s
  | g :: rest =>
    let n := w.o.ty.size
    let r := atomicRun (s.teamAt u).regs w.op w.o (old % 2 ^ (8 * n)) g.lanes
    let s1 := match g.place with
      | .home pa _ => (s.atHome (pa / 128)).mapMem (fun m => (m.flushLine (pa / 128)).setBytes pa (leBytes n r.1))
      | _ => s
    s1.goOn u { w with groups := rest, olds := w.olds ++ r.2 }

/-- ATOMICOP_COMPLETION: with success old values are rebuilt; Unsupported Request falls back to CXL.cache where the context has it; any
other status fails (R387, R388). -/
def execAtomicopCompletion (team : Nat) (status : BitVec 3) (old : DWord) (s : State) : Out :=
  match (s.teamAt team).status with
  | .atomicOp w =>
    if w.viaCache then .next s
    else if status = 0 then .next (s.completeAtomic team w old.toNat)
    else if status ≠ 1 then .next (s.failAtomic team w 0 status)
    else if s.fnOf (s.ctxOf team) ≠ 0 then .next (s.failAtomic team w 1 status)
    else
      let w1 : AtomicWait := { w with viaCache := true, io := status }
      .next ((s.mapTeam team (fun t => { t with status := .atomicOp w1 })).performWaiting team w1)
  | _ => .next s

/-- ATOMICOP_TIMEOUT (R387). -/
def execAtomicopTimeout (team : Nat) (s : State) : Out :=
  match (s.teamAt team).status with
  | .atomicOp w => if w.viaCache then .next s else .next (s.failAtomic team w 0 7)
  | _ => .next s

/-- Whether an atomic waits for ownership of a host-memory line. -/
def AtomicWait.wantsOwnership (w : AtomicWait) : Bool :=
  w.viaCache && (match w.line with | some l => rangeOf (128 * l) = .host | none => false)

/-- OWNERSHIP_TIMEOUT (R388). -/
def execOwnershipTimeout (team : Nat) (s : State) : Out :=
  match (s.teamAt team).status with
  | .atomicOp w => if w.wantsOwnership then .next (s.failAtomic team w 3 w.io) else .next s
  | _ => .next s

/-- What waited for a line goes on once the host has answered: write-backs, atomics, host accesses, sends and placements (R215, R221, R291,
R293). -/
def State.hostAnswered (s : State) (line : Nat) : State :=
  let s1 := (s.finishUnmaps.resumeAtomics line).serveWaiting
  s1.net.conns.foldl (fun (s : State) p => (s.retrySends p.1).publishAll p.1) s1

/-- CXL_CACHE_RESPONSE: a grant ends the requests that it answers, and a refusal of ownership fails the atomics that wait for it
(R216, R387, R388). In the safe state CXL.cache refuses it (R391). -/
def execCxlCacheResponse (line : Nat) (response : CxlResponse) (s : State) : Out :=
  if s.platform.safe || !s.mem.requests.any (fun r => r.line = line) then .next s
  else
    match response with
    | .shared =>
      .next ((s.mapMem (fun m =>
        let m1 := if (m.grant line).isSome then m else m.setGrant line (some false)
        { m1 with requests := m1.requests.filter (fun r => !(r.line = line && !r.owned)) })).hostAnswered line)
    | .owned =>
      .next ((s.mapMem (fun m =>
        let m1 := m.setGrant line (some true)
        { m1 with requests := m1.requests.filter (fun r => r.line ≠ line) })).hostAnswered line)
    | .refused =>
      let s1 := s.mapMem (fun m => { m with requests := m.requests.filter (fun r => r.line ≠ line) })
      .next (s1.teams.foldl (fun (s : State) p =>
        match (s.teamAt p.1).status with
        | .atomicOp w => if w.wantsOwnership && w.line = some line then s.failAtomic p.1 w 2 w.io else s
        | _ => s) s1)

/-- HOST_SNOOP: the slices answer with the line's dirty words and give up or downgrade their copies, and the host's own writes to the line go on
(R216). In the safe state CXL.cache refuses it (R391). -/
def execHostSnoop (line : Nat) (invalidate : Bool) (s : State) : Out :=
  if s.platform.safe || rangeOf (128 * line) ≠ .host || (s.mem.grant line).isNone then .next s
  else if invalidate then .next (s.mapMem (fun m => (m.flushLine line).setGrant line none)).serveWaiting
  else .next (s.mapMem (fun m => ((m.recallLine line).cleanLine line).setGrant line (some false)))

/-! ### Back-invalidation and flips (R221, R385, R386) -/

/-- BISNPINV. -/
def execBisnpinv (line : Nat) (s : State) : Out := .next (s.mapMem (fun m => m.backInvalidate line))

/-- BIRSP: the host's dirty words are merged word by word, but for words that a device proxy slice owns, the entry is free, and what waited
for it goes on (R221). -/
def execBirsp (line : Nat) (dirty : List (Nat × Word32)) (s : State) : Out :=
  match s.mem.snoopOf line with
  | none => .next s
  | some e =>
    if !e.invalidating then .next s
    else
      let owners := (s.mem.dirAt line).owners
      let words := if e.modified then dirty.filter (fun p => decide (p.1 < 32) && (owners.find p.1).isNone) else []
      let s1 := s.mapMem (fun m =>
        let m1 := words.foldl (fun (m : Mem) p => m.setBytes (128 * line + 4 * p.1) (leBytes 4 p.2.toNat)) m
        { m1 with snoop := m1.snoop.filter (fun x => x.line ≠ line) })
      .next (s1.hostAnswered line)

/-- The lines of a region that some slice holds. -/
def Mem.heldLines (m : Mem) (region : Nat) : List Nat :=
  ((m.copies.filter (fun p => p.1 / 128 / 16384 = region)).map (fun p => p.1 / 128)).eraseDups

/-- BIAS_FLIP_COMPLETE: to device bias once no snoop-filter entry of the region is left; to host bias with every slice copy written back and
invalidated (R385, R386). -/
def execBiasFlipComplete (region : Nat) (s : State) : Out :=
  let b := s.biasAt region
  let done (s : State) : State :=
    (s.mapHub (fun h => { h with bias := h.bias.set region { b with host := b.toHost, busy := false } })).serveWaiting
  if !b.busy then .next s
  else if b.toHost then .next (done (s.mapMem (fun m => (m.heldLines region).foldl (fun (m : Mem) l => m.flushLine l) m)))
  else if s.mem.snoop.any (fun e => e.line / 16384 = region) then .next s
  else .next (done s)

end Sys2Proof.Machine
end

