-- ==== Sys2Proof/Machine/Matrix.lean ====
section
/-! DEFINITION. The matrix instructions, the steps of a core's matrix engine and of its epilogue, and emulation (R91 to R96, R112,
R296 to R319). -/
namespace Sys2Proof.Machine

/-! ### The format block (R299 to R301) -/

/-- The half-bytes of an element of a matrix format; 0 for the codes that have no size at issue (R299). -/
def matHalves (code : Nat) : Nat :=
  match code with
  | 0 => 2
  | 1 => 2
  | 2 => 2
  | 3 => 4
  | 4 => 4
  | 5 => 8
  | 6 => 1
  | _ => 0

/-- The A format of a block. -/
def fmtA (w0 : DWord) : Nat := bitsOf w0 0 4

/-- The B format of a block. -/
def fmtB (w0 : DWord) : Nat := bitsOf w0 4 4

/-- The block length L of a block, 0 for none. -/
def blockLength (w0 : DWord) : Nat :=
  match bitsOf w0 8 2 with
  | 0 => 0
  | 1 => 16
  | 2 => 32
  | _ => 64

/-- K of a block. -/
def blockK (w0 : DWord) : Nat := 4 * bitsOf w0 44 9

/-- The highest scale entry that a scaled block names (R301). -/
def lastScale (w0 : DWord) : Nat :=
  max (bitsOf w0 12 12) (bitsOf w0 24 12) + 63 * bitsOf w0 36 8 + blockK w0 / blockLength w0 - 1

/-- Whether a format block is ill-formed for a form (R301). -/
def illFormed (form : MmaForm) (w0 w1 : DWord) : Bool :=
  let sparse : Bool := match form with | .sparse => true | _ => false
  let triangular : Bool := match form with | .triangular => true | _ => false
  fmtA w0 = 15 || fmtB w0 = 15 || bitsOf w0 53 11 ≠ 0 || blockK w0 = 0 || 512 < blockK w0
    || w0.getLsbD 10 != sparse || w0.getLsbD 11 != triangular
    || (blockLength w0 ≠ 0 &&
      (blockK w0 % blockLength w0 ≠ 0 || fmtA w0 ≠ 0 || fmtB w0 ≠ 0 || 8191 < lastScale w0))
    || (sparse && bitsOf w1 21 43 ≠ 0) || (triangular && bitsOf w1 48 16 ≠ 0)

/-- Whether the formats of a block are native (R301). -/
def isNative (w0 : DWord) : Bool := fmtA w0 = fmtB w0 && fmtA w0 < 5

/-- Whether a format is an integer format. -/
def isIntFmt (code : Nat) : Bool := code = 1 || code = 2 || code = 6

/-- The regions that an MMA form reads, as offset and size, with elements of `ha` and `hb` half-bytes; no size where the format has none
(R299, R303, R314). -/
def mmaSized (form : MmaForm) (w0 w1 : DWord) (offA offB ha hb : Nat) : List (Nat × Option Nat) :=
  let k := blockK w0
  let sized (h n : Nat) : Option Nat := if h = 0 then none else some (n * h / 2)
  match form with
  | .sparse => [(offA, sized ha (64 * (k / 2))), (offB, sized hb (64 * k)), (bitsOf w1 0 21, some (16 + 8 * k))]
  | _ => [(offA, sized ha (64 * k)), (offB, sized hb (64 * k))]

/-- The regions of an MMA form as its formats give them at issue. -/
def mmaRegions (form : MmaForm) (w0 w1 : DWord) (offA offB : Nat) : List (Nat × Option Nat) :=
  mmaSized form w0 w1 offA offB (matHalves (fmtA w0)) (matHalves (fmtB w0))

/-! ### Checks at issue (R298) -/

/-- Whether a checked region ends beyond the declared scratchpad; one with no size only has to begin in it (R299). -/
def beyondScratch (scratch : Nat) (x : Nat × Option Nat) : Bool :=
  match x.2 with
  | some n => scratch < x.1 + n
  | none => scratch ≤ x.1

/-- Steps 4 and 5 of R298 over the regions of a command, each aligned to `al`. -/
def State.regionCheck (s : State) (al : Nat) (xs : List (Nat × Option Nat)) : Option Stop :=
  match xs.find? (fun x => x.1 % al ≠ 0) with
  | some x => some (stopEnd .misalignment (windowBase + x.1) 0)
  | none => (xs.find? (beyondScratch s.gang.scratch)).map (fun x => stopEnd .windowKind (windowBase + x.1) 0)

/-- A region of scratchpad read, as a region of the footprint scheduler. -/
def scratchRegion (scratch : Nat) (x : Nat × Option Nat) : Region := ⟨windowBase + x.1, x.2.getD (scratch - x.1), false⟩

/-- A checked command entered in the scheduler and the matrix command queue, or stalled where either is full; it wakes the engine's island (R16,
R260, R298, R314, R372). -/
def State.matrixPush (s : State) (i : Instr) (m : MatrixCmd) (rs : List Region) (c : Completion) (note : Engine → Engine) : Out :=
  let core := s.gang.core
  if 32 ≤ (s.coreAt core).matrixCount || s.schedulerFull then s.stallPush
  else
    ((((s.wakeMatrix core).enterCommand i (.matrix m) rs c).mapCore core (fun k => { k with engine := note k.engine })).sealInterval
      s.team.gang).retire

/-- The checks that every command of the chapter begins with: its endpoint, its variant and, where a names a pair, the pair (R109, R297,
R298). -/
def State.matrixIssue (s : State) (i : Instr) (o : Ops) (accepted : Nat) (pair : Bool) (f : Unit → Out) : Out :=
  if s.targetOf o ≠ some .matrix then s.trapEnd .illegalRegister
  else if o.var.toNat % accepted ≠ 0 then s.trapWord .illegalInstruction i
  else if pair && (o.a.num = 0 || o.a.num.toNat % 2 ≠ 0) then s.trapWord .illegalRegister i
  else f ()

/-- The MMA forms (R302 to R305). -/
def State.mmaIssue (s : State) (i : Instr) (o : Ops) (form : MmaForm) : Out :=
  s.matrixIssue i o 16 true (fun _ =>
    let w0 := s.sreg o.a.num.toNat
    let w1 := s.sreg (o.a.num.toNat + 1)
    let offs := s.regs.source o.b
    let xs := mmaRegions form w0 w1 (bitsOf offs 0 32) (bitsOf offs 32 32)
    if illFormed form w0 w1 then s.trapEnd .formatFault
    else
      match s.regionCheck 16 xs with
      | some e => .next (s.stopAt e)
      | none => s.matrixPush i (.mma form w0 w1 (bitsOf offs 0 32) (bitsOf offs 32 32)) (xs.map (scratchRegion s.gang.scratch))
          ⟨none, none⟩ id)

/-- MMA. -/
def execMma (o : Ops) (s : State) : Out := s.mmaIssue (.mma o) o .dense

/-- MMA.SP. -/
def execMmaSp (o : Ops) (s : State) : Out := s.mmaIssue (.mmaSp o) o .sparse

/-- MMA.TRI. -/
def execMmaTri (o : Ops) (s : State) : Out := s.mmaIssue (.mmaTri o) o .triangular

/-- SCLD (R306). -/
def execScld (o : Ops) (s : State) : Out :=
  s.matrixIssue (.scld o) o 16 false (fun _ =>
    let off := (s.regs.source o.a).toNat
    let x := s.regs.source o.b
    let count := bitsOf x 32 14
    let first := bitsOf x 0 13
    let rs : List (Nat × Option Nat) := [(off, some (2 * count))]
    if bitsOf x 46 18 ≠ 0 || bitsOf x 13 19 ≠ 0 || count = 0 || 8192 < first + count then s.trapEnd .illegalRegister
    else
      match s.regionCheck 2 rs with
      | some e => .next (s.stopAt e)
      | none => s.matrixPush (.scld o) (.scld off first count) (rs.map (scratchRegion s.gang.scratch)) ⟨none, none⟩ id)

/-- ACCZ (R309). -/
def execAccz (o : Ops) (s : State) : Out :=
  s.matrixIssue (.accz o) o 16 false (fun _ => s.matrixPush (.accz o) .accz [] ⟨none, none⟩ id)

/-- The row size of an epilogue's output (R312). -/
def EpConfig.rowSize (c : EpConfig) : Nat :=
  match c.fmt.toNat with
  | 0 => 256
  | 1 => 128
  | 2 => 128
  | _ => if c.blk = 0 then 72 else 68

/-- The region that an ACCADV writes under a configuration (R314). -/
def EpConfig.region (c : EpConfig) : List Region :=
  if c.toQueue then [] else [⟨windowBase + c.dest, 63 * c.rstride + c.rowSize, true⟩]

/-- The checks of ACCADV's completion spec in R298. -/
def State.specCheck (s : State) (spec : DWord) (w b : Bool) : Option Stop :=
  if (w || b) && specMalformed spec then some (.trap .illegalInstruction 0 0 false)
  else if b && (let x := s.barrier s.team.gang (bitsOf spec 24 4); !x.init || x.gang ≠ s.team.gang) then
    some (.trap .illegalRegister 0 0 false)
  else if w then s.wordCheck (bitsOf spec 0 21)
  else none

/-- ACCADV (R310). -/
def execAccadv (o : Ops) (s : State) : Out :=
  s.matrixIssue (.accadv o) o 4 false (fun _ =>
    let spec := s.regs.source o.b
    let w := o.var.getLsbD 3
    let b := o.var.getLsbD 2
    match s.specCheck spec w b with
    | some e => .next (s.stopAt e)
    | none =>
      s.matrixPush (.accadv o) .accadv (s.coreAt s.gang.core).engine.cfgIssued.region (completionOf spec w b) id)

/-- The configuration of EPCFG's operands; its vectors are read when the engine reaches it (R311). -/
def epConfigOf (w0 bounds : DWord) : EpConfig where
  dest := bitsOf w0 32 21
  rstride := bitsOf w0 16 16
  blk := BitVec.ofNat 2 (bitsOf w0 8 2)
  isInt := w0.getLsbD 7
  toQueue := w0.getLsbD 6
  fmt := BitVec.ofNat 2 (bitsOf w0 4 2)
  bias := w0.getLsbD 3
  scale := w0.getLsbD 2
  act := BitVec.ofNat 2 (bitsOf w0 0 2)
  colscale := []
  biases := []
  lo := BitVec.ofNat 32 (bitsOf bounds 0 32)
  hi := BitVec.ofNat 32 (bitsOf bounds 32 32)

/-- The vectors that EPCFG reads, in the order column scale, bias. -/
def epVectors (c : EpConfig) (w1 : DWord) : List (Nat × Option Nat) :=
  (if c.scale then [(bitsOf w1 0 21, some 256)] else []) ++ (if c.bias then [(bitsOf w1 21 21, some 256)] else [])

/-- The checks of EPCFG after its pair, steps 3 to 5 of R298 (R311). -/
def State.epcfgCheck (s : State) (c : EpConfig) (w0 w1 : DWord) : Option Stop :=
  let rows : List (Nat × Option Nat) := if c.toQueue then [] else [(c.dest, some (63 * c.rstride + c.rowSize))]
  if bitsOf w0 53 11 ≠ 0 || bitsOf w0 10 6 ≠ 0 || c.blk = 3 || bitsOf w1 42 22 ≠ 0 || (!c.toQueue && c.rstride < c.rowSize) then
    some (.trap .illegalRegister 0 0 false)
  else if !c.toQueue && (c.dest % 4 ≠ 0 || c.rstride % 4 ≠ 0) then some (stopEnd .misalignment (windowBase + c.dest) 0)
  else s.regionCheck 4 (rows ++ epVectors c w1)

/-- EPCFG (R311). -/
def execEpcfg (o : Ops) (s : State) : Out :=
  s.matrixIssue (.epcfg o) o 16 true (fun _ =>
    let w0 := s.sreg o.a.num.toNat
    let w1 := s.sreg (o.a.num.toNat + 1)
    let bounds := s.regs.source o.b
    let c := epConfigOf w0 bounds
    match s.epcfgCheck c w0 w1 with
    | some e => .next (s.stopAt e)
    | none =>
      s.matrixPush (.epcfg o) (.epcfg w0 w1 bounds) ((epVectors c w1).map (scratchRegion s.gang.scratch)) ⟨none, none⟩
        (fun e => { e with cfgIssued := c }))

/-- The state of a tile (R308). -/
def Engine.tileState (e : Engine) (t : Nat) : TileState := e.states.get .isOpen t

/-- The word of MSTAT for the owner (R319). -/
def Core.matrixStatus (c : Core) : DWord :=
  let e := c.engine
  let pend := (List.range 16).foldl (fun n t => if e.tileState t = .isOpen then n else n + 2 ^ t) 0
  field 48 16 e.drained.toNat ||| field 32 13 e.outq.length ||| flag 29 true ||| flag 28 (e.drain.isSome || e.emulating.isSome)
    ||| field 12 16 pend ||| field 8 4 e.head ||| field 0 6 c.matrixCount

/-- MSTAT (R319). -/
def execMstat (o : Ops) (s : State) : Out :=
  let c := s.coreAt s.gang.core
  (s.setS o.d.num.toNat (if c.engine.owner = some s.team.gang then c.matrixStatus else 0)).retire

/-! ### Products (R91 to R93, R299, R302 to R305, R307) -/

/-- The bits of element `n` of an operand at a scratchpad offset (R299). -/
def Gang.matBits (g : Gang) (code off n : Nat) : Nat :=
  if code = 6 then (g.scratchpad.byte (off + n / 2)).toNat / 16 ^ (n % 2) % 16
  else leNat (g.scratchpad.read (off + n * (matHalves code / 2)) (matHalves code / 2))

/-- An element of an integer format. -/
def matInt (code bits : Nat) : Int :=
  match code with
  | 1 => intOf true 8 bits
  | 2 => intOf false 8 bits
  | _ => intOf true 4 bits

/-- An element of a format with a size, exactly (R91). -/
def matExact (code bits : Nat) : Exact :=
  match code with
  | 0 => dm8Decode bits
  | 3 => Fmt.fp16.decode bits
  | 4 => Fmt.bf16.decode bits
  | 5 => Fmt.fp32.decode bits
  | _ => .ofInt (matInt code bits)

/-- The value of a DM8 code in units of 2^−12; 0 for NaR. -/
def dm8Units (c : Nat) : Int := signed (decide (128 < c)) (dm8Mag (c % 128))

/-- The live quads of a sparse command, in ascending order (R303). -/
def Gang.liveQuads (g : Gang) (mo k : Nat) : List Nat :=
  (List.range (k / 4)).filter (fun q => (g.scratchpad.byte (mo + q / 8)).getLsbD (q % 8))

/-- The products that enter row i: groups of A element index and k, in ascending k (R91, R304). -/
def Gang.rowTerms (g : Gang) (form : MmaForm) (mo k : Nat) (live : List Nat) (i : Nat) : List (List (Nat × Nat)) :=
  match form with
  | .sparse => (List.range live.length).map (fun q =>
      let nibble := (g.scratchpad.byte (mo + 16 + 32 * q + i / 2)).toNat / 16 ^ (i % 2) % 16
      let base := i * (k / 2) + 2 * q
      [(base, 4 * live.getD q 0 + nibble % 4), (base + 1, 4 * live.getD q 0 + nibble / 4)])
  | _ => (List.range (k / 4)).map (fun q => (List.range 4).map (fun u => (i * k + 4 * q + u, 4 * q + u)))

/-- One block of R92 added to an accumulator: the DM8 codes of its products and the two scales. A block with no product adds nothing
(R304). -/
def scaledBlock (acc : Nat) (sa sb : Scale) (xs : List (Nat × Nat)) : Nat :=
  let isNan (sc : Scale) (codes : List Nat) : Bool := match sc with
    | .nan => true
    | .zero => false
    | .value _ _ => codes.any (fun c => c = 0x80)
  if xs.isEmpty then acc
  else if isNan sa (xs.map (fun x => x.1)) || isNan sb (xs.map (fun x => x.2)) then accumulate acc .nan
  else
    match sa, sb with
    | .value na da, .value nb db =>
      let q : Int := xs.foldl (fun (n : Int) x => n + dm8Units x.1 * dm8Units x.2) 0
      accumulate acc (.ofRatio false (q * na * nb) (2 ^ 24 * da * db))
    | _, _ => accumulate acc (.zero false)

/-- What an MMA form reads of a gang and an engine; `ha` and `hb` are the half-bytes of an element of A and B. -/
structure MmaIn where
  gang : Gang
  engine : Engine
  form : MmaForm
  w0 : DWord
  w1 : DWord
  offA : Nat
  offB : Nat
  ha : Nat
  hb : Nat

/-- The word of element (i, j) after the command, from its word before and the products of its row (R91 to R93, R302). -/
def MmaIn.cell (m : MmaIn) (terms : List (List (Nat × Nat))) (i j : Nat) (old : Word32) : Word32 :=
  let fa := fmtA m.w0
  let fb := fmtB m.w0
  let k := blockK m.w0
  let a (n : Nat) : Nat := m.gang.matBits fa m.offA n
  let b (n : Nat) : Nat := m.gang.matBits fb m.offB (j * k + n)
  if isIntFmt fa && isIntFmt fb then
    BitVec.ofInt 32 (terms.flatten.foldl (fun (n : Int) t => n + matInt fa (a t.1) * matInt fb (b t.2)) old.toNat)
  else if blockLength m.w0 = 0 then
    BitVec.ofNat 32 (terms.foldl (fun acc g =>
      accumulate acc (sumExact (g.map (fun t => (matExact fa (a t.1)).mul (matExact fb (b t.2)))))) old.toNat)
  else
    let l := blockLength m.w0
    let scale (base row t : Nat) : Scale := s10Decode (m.engine.scales.get 0 (base + row * bitsOf m.w0 36 8 + t)).toNat
    BitVec.ofNat 32 ((List.range (k / l)).foldl (fun acc t =>
      scaledBlock acc (scale (bitsOf m.w0 12 12) i t) (scale (bitsOf m.w0 24 12) j t)
        ((terms.flatten.filter (fun x => x.2 / l = t)).map (fun x => (a x.1, b x.2)))) old.toNat)

/-- Whether MMA.TRI masks the word of row i and column j (R305). -/
def MmaIn.masked (m : MmaIn) (i j : Nat) : Bool :=
  match m.form with
  | .triangular => decide (intOf true 16 (bitsOf m.w1 32 16) < (j : Int) - i)
  | _ => false

/-- The words of a tile after an MMA form (R302, R305): MMA.TRI sets its masked words to the constant. -/
def MmaIn.tile (m : MmaIn) (old : Map Word32) : Map Word32 :=
  let mo := bitsOf m.w1 0 21
  let live := m.gang.liveQuads mo (blockK m.w0)
  ((List.range 64).map (fun i =>
    let terms := m.gang.rowTerms m.form mo (blockK m.w0) live i
    (List.range 64).filterMap (fun j =>
      let n := 64 * i + j
      let w := if m.masked i j then BitVec.ofNat 32 (bitsOf m.w1 0 32) else m.cell terms i j (old.get 0 n)
      if w = 0 then none else some (n, w)))).flatten

/-- The words of a tile after an MMA form of a format that only the firmware defines, whose products with what the tile held give `words`: MMA.SP
with no live quad leaves the tile unchanged, and MMA.TRI sets its masked words to the constant, whatever the format (R304, R305, R316). -/
def MmaIn.emulatedTile (m : MmaIn) (old : Map Word32) (words : List Word32) : Map Word32 :=
  if m.form = .sparse && (m.gang.liveQuads (bitsOf m.w1 0 21) (blockK m.w0)).isEmpty then old
  else
    (List.range 4096).filterMap (fun n =>
      let w := if m.masked (n / 64) (n % 64) then BitVec.ofNat 32 (bitsOf m.w1 0 32) else words.getD n 0
      if w = 0 then none else some (n, w))

/-- The scratchpad offset of the first poisoned word that an MMA form reads, if there is one (R299, R303, R304, R317). -/
def MmaIn.badOffset (m : MmaIn) : Option Nat :=
  if m.gang.poison.isEmpty then none
  else
    let k := blockK m.w0
    let mo := bitsOf m.w1 0 21
    let live := m.gang.liveQuads mo k
    let ranges : List (Nat × Nat) :=
      match m.form with
      | .sparse =>
        let terms := ((List.range 64).map (fun i => (m.gang.rowTerms m.form mo k live i).flatten)).flatten
        [(mo, 16), (mo + 16, 32 * live.length)]
          ++ terms.map (fun t => (m.offA + t.1 * m.ha / 2, (m.ha + 1) / 2))
          ++ ((terms.map (fun t => t.2)).eraseDups.map (fun n => (List.range 64).map (fun j =>
              (m.offB + (j * k + n) * m.hb / 2, (m.hb + 1) / 2)))).flatten
      | _ => [(m.offA, 64 * k * m.ha / 2), (m.offB, 64 * k * m.hb / 2)]
    ranges.findSome? (fun r => if r.2 = 0 then none else m.gang.firstBad r.1 r.2)

/-- Whether an MMA form reads a poisoned word of the tile that it accumulates into, or a poisoned entry of scale memory (R175). -/
def MmaIn.badEngine (m : MmaIn) : Bool :=
  let h := m.engine.head
  let tile := (List.range 4096).any (fun n => m.engine.bad.contains (4096 * h + n) && !m.masked (n / 64) (n % 64))
  let scale (base : Nat) : Bool :=
    (List.range 64).any (fun r => (List.range (blockK m.w0 / blockLength m.w0)).any (fun t =>
      m.engine.bad.contains (65536 + base + r * bitsOf m.w0 36 8 + t)))
  !m.engine.bad.isEmpty && (tile || (blockLength m.w0 ≠ 0 && (scale (bitsOf m.w0 12 12) || scale (bitsOf m.w0 24 12))))

/-- The address of the poison that an MMA form consumes: the word's in the local window, and 0 for a word of the engine, which has none (R317,
R359). -/
def MmaIn.poisoned (m : MmaIn) : Option DWord :=
  match m.badOffset with
  | some off => some (BitVec.ofNat 64 (windowBase + off))
  | none => if m.badEngine then some 0 else none

/-! ### The engine (R302, R308 to R314, R316) -/

/-- The engine of a core changed. -/
def State.mapEngine (s : State) (core : Nat) (f : Engine → Engine) : State :=
  s.mapCore core (fun k => { k with engine := f k.engine })

/-- A tile's words replaced; the tile is poisoned no more (R175). -/
def Engine.setTile (e : Engine) (t : Nat) (x : Map Word32) : Engine :=
  { e with tiles := e.tiles.set t x, bad := e.bad.filter (fun b => b / 4096 ≠ t) }

/-- Whether a command reads or writes tile h, and so waits until it is open (R308). -/
def MatrixCmd.usesTile (m : MatrixCmd) : Bool :=
  match m with
  | .mma _ _ _ _ _ => true
  | .accz => true
  | .accadv => true
  | _ => false

/-- The cycles for which the engine works on a command (R315). -/
def MatrixCmd.cycles (m : MatrixCmd) (g : Gang) : Nat :=
  let cost (w0 : DWord) : Nat := if fmtA w0 < 3 then blockK w0 / 4 else blockK w0 / 2
  match m with
  | .mma .dense w0 _ _ _ => cost w0
  | .mma .sparse w0 w1 _ _ =>
    let lq := (g.liveQuads (bitsOf w1 0 21) (blockK w0)).length
    max 1 (if fmtA w0 < 3 then (lq + 1) / 2 else lq)
  | .mma .triangular w0 w1 _ _ =>
    let d : Int := intOf true 16 (bitsOf w1 32 16)
    let n := ((List.range 16).filter (fun (t : Nat) => !decide (d < 16 * ((t % 4 : Nat) : Int) - 16 * ((t / 4 : Nat) : Int) - 15))).length
    max 1 ((cost w0 * n + 15) / 16)
  | .scld _ _ count => (count + 63) / 64
  | .accz => 1
  | .accadv => 1
  | .epcfg _ _ _ => 4

/-- A command stopped because a word that it read is poisoned: `va` is the word's address (R317, R359). -/
def State.matrixPoison (s : State) (core : Nat) (x : Cmd) (va : DWord) : State := s.commandStop core x (.poison va)

/-- The address of a byte of the scratchpad in the local window. -/
def localAddress (off : Nat) : DWord := BitVec.ofNat 64 (windowBase + off)

/-- The lowest-numbered hart of the Plovdy cluster that serves no emulation request (R390). -/
def Platform.freeHart (p : Platform) : Option Nat := (List.range 16).find? (fun h => (p.harts.find h).isNone)

/-- The emulation requests that wait taken in the order of their arrival, as far as harts are free (R390). -/
def Platform.serve (p : Platform) : Platform :=
  p.requests.foldl (fun (p : Platform) c =>
    match p.freeHart with
    | some h => { p with harts := p.harts.set h c, requests := p.requests.drop 1 }
    | none => p) p

/-- The requests of engines that emulate no command any more dropped, and the others taken, each waking the island of its hart (R16, R390;
log 51). -/
def State.serveRequests (s : State) : State :=
  let live (c : Nat) : Bool := (s.coreAt c).engine.emulating.isSome
  let s1 := s.mapPlatform (fun p => { p with harts := p.harts.filter (fun h => live h.2), requests := p.requests.filter live }.serve)
  s1.platform.harts.foldl (fun (s : State) h => s.wakeIsland (492 + h.1)) s1

/-- A core's command handed to service firmware: source 65 is raised, and a hart takes the request in its turn (R316, R390). -/
def State.requestEmulation (s : State) (core : Nat) : State :=
  ((s.mapPlatform (fun p => { p with requests := p.requests ++ [core] })).raise 65).serveRequests

/-- Whether a hart serves a core's emulation request (R390). -/
def State.hartServes (s : State) (core : Nat) : Bool := s.platform.harts.any (fun h => h.2 = core)

/-- An MMA form's product written into tile h, and the command complete. -/
def State.performMma (s : State) (core : Nat) (x : Cmd) (m : MmaIn) : State :=
  match m.poisoned with
  | some va => s.matrixPoison core x va
  | none => (s.mapEngine core (fun e => e.setTile e.head (m.tile (e.tiles.get [] e.head)))).completeCommand core x 0

/-- What a command of an MMA form reads. -/
def State.mmaIn (s : State) (core : Nat) (x : Cmd) (form : MmaForm) (w0 w1 : DWord) (offA offB : Nat) : MmaIn :=
  ⟨s.gangAt x.gang, (s.coreAt core).engine, form, w0, w1, offA, offB, matHalves (fmtA w0), matHalves (fmtB w0)⟩

/-- A command whose formats are not native handed to the firmware: its team parks with 0x30, unless it has exited (R316). -/
def State.startEmulation (s : State) (core : Nat) (x : Cmd) : State :=
  let s1 := (s.serveRequests.mapCore core (fun k =>
    { (k.mapCommand x.id (fun y => { y with started := true })) with engine := { k.engine with emulating := some x.id } })).requestEmulation core
  if s1.hasBoundary x.team then
    s1.mapTeam x.team (fun t => { t with async := insertCause ⟨.emulation, x.pc, x.word, 0x20, none, x.id⟩ t.async })
  else if (s1.teamAt x.team).status = .exited then (s1.addRecord (s1.commandRecord x .emulation 0x20 x.word) false).1
  else s1

/-- SCLD performed (R306). -/
def State.performScld (s : State) (core : Nat) (x : Cmd) (off first count : Nat) : State :=
  let g := s.gangAt x.gang
  match g.firstBad off (2 * count) with
  | some b => s.matrixPoison core x (localAddress b)
  | none =>
    (s.mapEngine core (fun e => { e with
      scales := (List.range count).foldl (fun (m : Map (BitVec 10)) n =>
        m.put 0 (first + n) (BitVec.ofNat 10 (leNat (g.scratchpad.read (off + 2 * n) 2)))) e.scales
      bad := e.bad.filter (fun b => !(65536 + first ≤ b && b < 65536 + first + count)) })).completeCommand core x 0

/-- EPCFG performed: its vectors are read and the whole configuration takes effect (R311). -/
def State.performEpcfg (s : State) (core : Nat) (x : Cmd) (w0 w1 bounds : DWord) : State :=
  let g := s.gangAt x.gang
  let c := epConfigOf w0 bounds
  let vector (off : Nat) : List Word32 := (List.range 64).map (fun j => BitVec.ofNat 32 (leNat (g.scratchpad.read (off + 4 * j) 4)))
  match (epVectors c w1).findSome? (fun r => g.firstBad r.1 256) with
  | some b => s.matrixPoison core x (localAddress b)
  | none =>
    (s.mapEngine core (fun e => { e with cfg := { c with
      colscale := if c.scale then vector (bitsOf w1 0 21) else []
      biases := if c.bias then vector (bitsOf w1 21 21) else [] } })).completeCommand core x 0

/-- ACCADV performed: the configuration captured, tile h pending, h advanced; the command completes with its drain (R310). -/
def State.performAccadv (s : State) (core : Nat) (x : Cmd) : State :=
  s.mapCore core (fun k =>
    let e := k.engine
    { (k.mapCommand x.id (fun y => { y with started := true })) with engine := { e with
      captured := e.captured.set e.head e.cfg
      states := e.states.put .isOpen e.head .pending
      passed := e.passed ++ [(e.head, x.id)]
      head := (e.head + 1) % 16 } })

/-- A command of the matrix engine performed whole (R314). -/
def State.performMatrix (s : State) (core : Nat) (x : Cmd) (m : MatrixCmd) : State :=
  match m with
  | .mma form w0 w1 offA offB =>
    if isNative w0 then s.performMma core x (s.mmaIn core x form w0 w1 offA offB) else s.startEmulation core x
  | .scld off first count => s.performScld core x off first count
  | .accz => (s.mapEngine core (fun e => e.setTile e.head [])).completeCommand core x 0
  | .accadv => s.performAccadv core x
  | .epcfg w0 w1 bounds => s.performEpcfg core x w0 w1 bounds

/-- Whether a command is one that the firmware emulates (R316). -/
def MatrixCmd.isEmulated (m : MatrixCmd) : Bool := match m with | .mma _ w0 _ _ _ => !isNative w0 | _ => false

/-- Whether a command may start now: no edge is pending, no fault holds a command of the queue, tile h is open where it uses it, and a command to
be emulated has no earlier command of the queue before it (R275, R308, R316, R317). -/
def State.mayStart (s : State) (core : Nat) (x : Cmd) (m : MatrixCmd) : Bool :=
  let c := s.coreAt core
  s.unblocked x && !c.cmds.any (fun y => y.isMatrix && y.stopped) && (!m.usesTile || c.engine.tileState c.engine.head = .isOpen)
    && (!m.isEmulated || c.engine.passed.isEmpty)

/-- The cycles of its matrix engine counted for a gang, in event 9 and in its figure a (R354, R356). -/
def State.countEngine (s : State) (gid n : Nat) : State := (s.mapGang gid (fun g => { g with work := g.work + 16 * n })).count gid 9 n

/-- MATRIX_COMMAND_START: the oldest command of the queue starts and takes effect. -/
def execMatrixCommandStart (core : Nat) (s : State) : Out :=
  let c := s.coreAt core
  match c.cmds.find? (fun x => x.isMatrix && !x.started) with
  | some x =>
    match x.kind with
    | .matrix m =>
      if c.engine.emulating.isSome || !s.mayStart core x m then .next s
      else .next (((s.wakeMatrix core).performMatrix core x m).countEngine x.gang (if m.isEmulated then 0 else m.cycles (s.gangAt x.gang)))
    | _ => .next s
  | none => .next s

/-- A team's park for emulation ended, or its charge withdrawn before it was taken (R316, R362). -/
def State.endEmulationPark (s : State) (x : Cmd) : State :=
  let t := s.teamAt x.team
  let s1 := s.mapTeam x.team (fun t => { t with
    async := t.async.filter (fun a => !(a.cause = .emulation && a.pc = x.pc && a.value = x.word)) })
  match t.status with
  | .parked _ _ _ .emulation =>
    (s1.mapTeam x.team (fun t => { t with status := .ready })).mapHub (fun h => h.release (fun k => k ≠ .team x.team))
  | _ => s1

/-- The end of the gang of an emulated command by a cause, with its faulting address or 0 (R45, R316, R359). -/
def State.endEmulation (s : State) (x : Cmd) (c : Cause) (va : DWord) : State := s.endTeam x.team c x.pc va 0x20 va

/-- The half-bytes of an element of a code: for the codes that only the firmware defines, those that it gives. -/
def halvesOf (code given : Nat) : Nat := if code < 7 then matHalves code else given

/-- EMULATION_COMPLETE: the firmware writes tile h, the queue restarts, and the team's park ends. For the codes that only the firmware
defines, `firmware` is what it gives, or nothing where it defines no format (R316). -/
def execEmulationComplete (core : Nat) (firmware : Option Emulated) (s : State) : Out :=
  let c := s.coreAt core
  match if s.hartServes core then c.engine.emulating else none with
  | none => .next s
  | some id =>
    match c.command id with
    | some x =>
      match x.kind with
      | .matrix (.mma form w0 w1 offA offB) =>
        let s1 := ((s.mapEngine core (fun e => { e with emulating := none })).serveRequests).endEmulationPark x
        let ha := halvesOf (fmtA w0) (firmware.elim 0 Emulated.halvesA)
        let hb := halvesOf (fmtB w0) (firmware.elim 0 Emulated.halvesB)
        let input : MmaIn := { s1.mmaIn core x form w0 w1 offA offB with ha := ha, hb := hb }
        if fmtA w0 < 7 && fmtB w0 < 7 then .next (s1.performMma core x input)
        else
          match firmware with
          | none => .next (s1.endEmulation x .formatFault 0)
          | some fw =>
            match (mmaSized form w0 w1 offA offB ha hb).find? (beyondScratch (s.gangAt x.gang).scratch), input.poisoned with
            | some r, _ => .next (s1.endEmulation x .windowKind (localAddress r.1))
            | none, some va => .next (s1.matrixPoison core x va)
            | none, none =>
              .next ((s1.mapEngine core (fun e => e.setTile e.head (input.emulatedTile (e.tiles.get [] e.head) fw.words))).completeCommand core x 0)
      | _ => .next s
    | none => .next s

/-! ### The epilogue (R95, R96, R310, R312) -/

/-- One FP32 operation with RNE. -/
def f32Op (f : Fmt → Rnd → Nat → Nat → Nat × Flags) (a b : Nat) : Nat := (f .fp32 .rne a b).1

/-- gelu of R95. -/
def gelu (v : Nat) : Nat :=
  let t1 := f32Op fmul v v
  let t2 := f32Op fmul t1 v
  let t3 := (ffma .fp32 .rne 0x3D372713 t2 v).1
  let t4 := f32Op fmul t3 0x3F4C422A
  let t5 := (specialFn .tanh .f32 (BitVec.ofNat 32 t4)).1
  let t6 := f32Op fadd t5 0x3F800000
  let t7 := f32Op fmul v 0x3F000000
  f32Op fmul t7 t6

/-- The activation of a configuration (R95). -/
def EpConfig.activate (c : EpConfig) (v : Nat) : Nat :=
  let x := Fmt.fp32.decode v
  match c.act.toNat with
  | 0 => v
  | 1 => if !x.isNan && x.isNeg then 0 else v
  | 2 => gelu v
  | _ =>
    if x.lt (Fmt.fp32.decode c.lo.toNat) then c.lo.toNat
    else if (Fmt.fp32.decode c.hi.toNat).lt x then c.hi.toNat
    else v

/-- Steps 1 to 3 of R95 on a tile word of column j, an s32 word first converted (R312). -/
def EpConfig.chain (c : EpConfig) (w : Word32) (j : Nat) : Nat :=
  let v0 := if c.isInt then (rnd .fp32 .rne (.ofInt (intOf true 32 w.toNat))).1 else w.toNat
  let v1 := if c.scale then f32Op fmul v0 (c.colscale.getD j 0).toNat else v0
  let v2 := if c.bias then f32Op fadd v1 (c.biases.getD j 0).toNat else v1
  c.activate v2

/-- The greater of two magnitudes. -/
def Exact.larger (x y : Exact) : Exact := if x.abs.lt y.abs then y.abs else x.abs

/-- A DM8 output block of R96: its scale and its codes. -/
def dm8Block (vs : List Nat) : Nat × List Nat :=
  let xs := vs.map Fmt.fp32.decode
  if xs.any (fun x => x.isNan) then (0x3FF, xs.map (fun _ => 0x80))
  else
    let sc := toS10 ((xs.foldl Exact.larger (.zero false)).divBy 1024 1)
    match s10Decode sc with
    | .value n d => (sc, xs.map (fun x => (toDM8 (x.divBy n d) false).1))
    | _ => (0, xs.map (fun _ => 0))

/-- The bytes of an output row (R312). -/
def EpConfig.row (c : EpConfig) (vs : List Nat) : List Byte :=
  match c.fmt.toNat with
  | 0 => (vs.map (leBytes 4)).flatten
  | 1 => (vs.map (fun v => leBytes 2 (rnd .fp16 .rne (Fmt.fp32.decode v)).1)).flatten
  | 2 => (vs.map (fun v => leBytes 2 (rnd .bf16 .rne (Fmt.fp32.decode v)).1)).flatten
  | _ =>
    let blocks := (groupsOf (16 * 2 ^ c.blk.toNat) 4 vs).map dm8Block
    let body := (blocks.map (fun b => b.2.map (BitVec.ofNat 8))).flatten ++ (blocks.map (fun b => leBytes 2 b.1)).flatten
    body ++ List.replicate (c.rowSize - body.length) 0

/-- The rows of a tile under a configuration (R312). -/
def EpConfig.rows (c : EpConfig) (tile : Map Word32) : List (List Byte) :=
  (List.range 64).map (fun r => c.row ((List.range 64).map (fun j => c.chain (tile.get 0 (64 * r + j)) j)))

/-- The words of bytes. -/
def wordsOf (bs : List Byte) : List Word32 := (groupsOf 4 bs.length bs).map (fun b => BitVec.ofNat 32 (leNat b))

/-- Whether a word of a tile is poisoned (R175). -/
def Engine.badTile (e : Engine) (t : Nat) : Bool := e.bad.any (fun b => b / 4096 = t)

/-- The drain of the oldest passed tile started (R310, R312). -/
def State.startDrain (s : State) (core t id : Nat) : State :=
  let e := (s.coreAt core).engine
  let c := e.capturedCfg t
  let words := if c.toQueue then wordsOf (c.rows (e.tiles.get [] t)).flatten else []
  ((s.wakeMatrix core).mapEngine core (fun e =>
    { e with states := e.states.put .isOpen t .draining, drain := some ⟨t, id, words⟩ })).feedDrain core

/-- EPILOGUE_DRAIN_START: the oldest pending tile is drained; the words of an output to the queue are placed as there is room. A poisoned word of
the tile is consumed by its ACCADV (R175). -/
def execEpilogueDrainStart (core : Nat) (s : State) : Out :=
  let e := (s.coreAt core).engine
  match e.drain, e.passed with
  | none, (t, id) :: _ =>
    if !e.badTile t then .next (s.startDrain core t id)
    else
      match (s.coreAt core).command id with
      | some x => if x.stopped then .next s else .next (s.matrixPoison core x 0)
      | none => .next s
  | _, _ => .next s

/-- The rows of a drained tile written to a gang's scratchpad. -/
def Gang.storeRows (g : Gang) (c : EpConfig) (rows : List (List Byte)) : Gang :=
  (List.range rows.length).foldl (fun (g : Gang) r => g.store (c.dest + r * c.rstride) (rows.getD r [])) g

/-- EPILOGUE_DRAIN_END: the rows of an output to memory are written; the tile opens, the drained count rises, and its ACCADV completes (R310).
A drain into the queue has ended with its last word. -/
def execEpilogueDrainEnd (core : Nat) (s : State) : Out :=
  let k := s.coreAt core
  let e := k.engine
  match e.drain with
  | some d =>
    if !d.words.isEmpty then .next s
    else
      let c := e.capturedCfg d.tile
      if c.toQueue then .next (s.endDrain core 0)
      else
        match k.command d.command with
        | some x =>
          .next ((s.mapGang x.gang (fun g => g.storeRows c (c.rows (e.tiles.get [] d.tile)))).endDrain core (64 * c.rowSize))
        | none => .next (s.endDrain core (64 * c.rowSize))
  | none => .next s

end Sys2Proof.Machine
end

