-- ==== Sys2Proof/Machine/Reset.lean ====
section
/-! DEFINITION. Errors of arrays, power-on, self-test and Function Level Reset (R13, R175, R237, R255, R389, R391, R393). -/
namespace Sys2Proof.Machine

/-! ### Errors (R175, R237, R255) -/

/-- A team with a poisoned register word. -/
def Team.spoil (t : Team) (b : BadReg) : Team := { t with bad := if t.bad.contains b then t.bad else t.bad ++ [b] }

/-- An engine with a poisoned word of a tile or entry of scale memory, by the numbers of `Engine.bad`. -/
def Engine.spoil (e : Engine) (n : Nat) : Engine := { e with bad := if e.bad.contains n then e.bad else e.bad ++ [n] }

/-- A gang with a barrier's or queue's record poisoned. -/
def Gang.spoilSync (g : Gang) (b : BadSync) : Gang := { g with badSync := if g.badSync.contains b then g.badSync else g.badSync ++ [b] }

/-- An uncorrectable error at its site: words, an operator, bytes of an apply or result slot, register words, the lanes of a row segment, or the record
of a barrier or queue are poisoned. -/
def State.strike (s : State) (x : ErrorSite) : State :=
  match x with
  | .word pa => s.mapMem (fun m => m.markPoison pa 1)
  | .scratch g off => s.mapGang g (fun x => x.markPoison [off])
  | .operator sl n => s.mapSlot sl n (fun q => { q with op := q.op.map (fun o => { o with poisoned := true }) })
  | .apply sl n v b => s.mapSlot sl n (fun q => { q with op := q.op.map (fun o =>
      let a := o.applySlot v
      { o with apply := o.apply.set v { a with bad := if a.bad.contains b || o.n * o.ein ≤ b then a.bad else a.bad ++ [b] } }) })
  | .bed sl b row seg => s.mapSlice sl (fun c => { c with beds := c.beds.update b (fun x =>
      { x with poison := x.poison.put 0 row (x.poison.get 0 row ||| (BitVec.ofNat 131072 (2 ^ 64 - 1) <<< (64 * seg))) }) })
  | .l1 core line w => s.mapCore core (fun c => c.mapLine line (fun l => { l with bad := l.bad ||| (l.valid &&& (1#32 <<< w)) }))
  | .vector u n l => s.mapTeam u (fun t => t.spoil (.vector n l))
  | .scalar u n => s.mapTeam u (fun t => if n = 0 then t else t.spoil (.scalar n))
  | .mask u n => s.mapTeam u (fun t => t.spoil (.mask n))
  | .tile core t w => s.mapCore core (fun c => { c with engine := c.engine.spoil (4096 * t + w % 4096) })
  | .scale core e => s.mapCore core (fun c => { c with engine := c.engine.spoil (65536 + e) })
  | .result sl n v b => s.mapSlot sl n (fun q => { q with op := q.op.map (fun o =>
      let r := o.resultSlot v
      { o with result := o.result.set v { r with bad := if r.bad.contains b || o.qstride ≤ b || o.s ≤ v then r.bad else r.bad ++ [b] } }) })
  | .barrier g n => s.mapGang g (fun x => x.spoilSync (.barrier n))
  | .queue g n => s.mapGang g (fun x => x.spoilSync (.queue n))

/-- UNCORRECTABLE_ERROR: a corrected error is logged and changes no result; another poisons (R175). -/
def execUncorrectableError (site : ErrorSite) (correctable : Bool) (s : State) : Out :=
  if correctable then .next (s.logEvent (.corrected site)) else .next (s.strike site)

/-! ### Power-on and self-test (R13, R391, R393) -/

/-- A field of a firmware image: `n` bytes from an offset (R393). -/
def imageBytes (i : FirmwareImage) (off n : Nat) : List Byte := (i.drop off).take n

/-- The number in a field of an image's header. -/
def imageField (i : FirmwareImage) (off : Nat) : Nat := leNat (imageBytes i off 4)

/-- The component that an image is for (R393). -/
def imageComponent (i : FirmwareImage) : Nat := imageField i 4

/-- The security version number of an image (R393). -/
def imageVersion (i : FirmwareImage) : Nat := imageField i 8

/-- The payload digest that an image's header names (R393). -/
def imageDigest (i : FirmwareImage) : BitVec 256 := BitVec.ofNat 256 (leNat (imageBytes i 16 32))

/-- Whether an image has the form of R393: its magic, a component, zeros in bytes 3,780 to 3,839, and as many bytes from byte 3,840 on as its payload
length says (DEDUCED, log 107). -/
def imageFormed (i : FirmwareImage) : Bool :=
  imageField i 0 = 0x56473936 && decide (1 ≤ imageComponent i) && decide (imageComponent i ≤ 4)
    && (imageBytes i 3780 60).all (fun b => b = 0) && i.length = 3840 + imageField i 12

/-- Whether an image is accepted: by its key's digest, its signature over bytes 0 to 47, its payload's digest and its security version (R393). -/
def imageAccepted (i : FirmwareImage) : Bool :=
  let key := imageBytes i 48 1312
  imageFormed i && Config.sha3 key = Config.vendorKeyDigest && Config.mldsaVerify key (imageBytes i 0 48) (imageBytes i 1360 2420)
    && Config.sha3 (imageBytes i 3840 (imageField i 12)) = imageDigest i
    && decide ((Config.minVersion (imageComponent i)).toNat ≤ imageVersion i)

/-- POWER_ON_RESET: everything that the device holds is at its reset value; accepted images are measured, and a refused one leaves the safe
state with class 11. What lies outside the device, its memory and the turns to come, stays. -/
def execPowerOnReset (images : List FirmwareImage) (s : State) : Out :=
  let s0 : State := { State.reset with agenda := s.agenda, free := s.free, mem := { State.reset.mem with host := s.mem.host } }
  let s1 := s0.mapPlatform (fun p => { p with
    measurements := (images.filter imageAccepted).map (fun i =>
      (BitVec.ofNat 32 (imageComponent i), BitVec.ofNat 32 (imageVersion i), imageDigest i)) })
  if images.all imageAccepted then .next s1 else .next (s1.enterSafe ⟨11, 0, 0⟩)

/-- SELF_TEST_COMPLETE (R391). -/
def execSelfTestComplete (failure : Option TestFailure) (s : State) : Out :=
  if !s.platform.selfTest then .next s
  else
    match failure with
    | some f => .next (s.enterSafe f)
    | none => .next (s.mapPlatform (fun p => { p with health := healthWord 1 0 0 0, selfTest := false }))

/-! ### Function Level Reset (R389) -/

/-- The contexts of a function. -/
def State.ctxsOf (s : State) (f : Nat) : List Nat := (s.hub.ctxs.filter (fun p => p.2.vfid = f)).map (fun p => p.1)

/-- A gang ended in silence: its teams are no more, but for one that is part-way in an atomic and ends with it (R45). -/
def State.dropGang (s : State) (g : Nat) : State :=
  let s1 := s.endGang g .userTrap
  (s1.teamsOf g).foldl (fun (s : State) u => s.mapTeam u (fun t => match t.status with
    | .atomicOp _ => t
    | _ => { t with status := .absent })) s1

/-- A dispatch ended in silence: no record and no signal; its entry is free. -/
def State.dropDispatch (s : State) (d : Nat) : State :=
  let gs := (s.gangs.filter (fun p => p.2.dispatch = d && (p.2.state = .resident || p.2.state = .saved))).map (fun p => p.1)
  (gs.foldl State.dropGang s).mapDispatch d (fun x => { x with
    valid := false, next := x.count, live := 0, unreported := [], audits := [], completing := false })

/-- The beds and operators of a context removed. -/
def State.dropHoldings (s : State) (c : Nat) : State :=
  s.slices.foldl (fun (s : State) p =>
    let s1 := (p.2.beds.filter (fun b => b.2.ctx = c)).foldl (fun (s : State) b => s.destroyBed p.1 b.1) s
    (p.2.slots.filter (fun q => q.2.valid && q.2.ctx = c && q.2.op.isSome)).foldl (fun (s : State) q => s.removeOperator p.1 q.1) s1) s

/-- What fault ids of a function hold outside its gangs ended: network placements and sends; the rest goes with its owner. -/
def State.dropHeld (s : State) (f : Nat) : State :=
  let due := s.hub.held.filter (fun x => x.fn = f)
  let s1 := due.foldl (fun (s : State) x => x.holds.foldl (fun (s : State) h =>
    match h with
    | .placement _ => s.killHeld h x.cause
    | .send _ _ => s.killHeld h x.cause
    | _ => s) s) s
  s1.mapHub (fun h => { h with held := h.held.filter (fun x => x.fn ≠ f) })

/-- FUNCTION_LEVEL_RESET of a virtual function. -/
def execFunctionLevelReset (function : Nat) (s : State) : Out :=
  if function = 0 || 63 < function then .next s
  else
    let cs := s.ctxsOf function
    let ds := (s.hub.dispatches.filter (fun p => p.2.valid && cs.contains p.2.ctx)).map (fun p => p.1)
    let s1 := ds.foldl State.dropDispatch s
    let s2 := cs.foldl State.dropHoldings s1
    let s3 := s2.dropHeld function
    let s4 := s3.mapHub (fun h => { h with queues := h.queues.mapValues (fun q x =>
      if q / 512 = function then { x with valid := false, taken := [], wait := none, slotHeld := false, conts := [] } else x) })
    .next (cs.foldl State.dropCtx s4)

end Sys2Proof.Machine
end

