-- ==== Sys2Proof/Machine/Dispatch.lean ====
section
/-! DEFINITION. The meaning of each instruction: one arm for each constructor of `Instr`. -/
namespace Sys2Proof.Machine

/-- One instruction executed in a state whose issuing team is `cur`; the steps of other agents name what they concern. -/
def exec (i : Instr) (s : State) : Host.Outcome State Fault Refusal :=
  match i with
  | .sadd o => Sys2Proof.Machine.execSadd o s
  | .saddL o => Sys2Proof.Machine.execSaddL o s
  | .ssub o => Sys2Proof.Machine.execSsub o s
  | .smul o => Sys2Proof.Machine.execSmul o s
  | .smulL o => Sys2Proof.Machine.execSmulL o s
  | .smulh o => Sys2Proof.Machine.execSmulh o s
  | .sdiv o => Sys2Proof.Machine.execSdiv o s
  | .srem o => Sys2Proof.Machine.execSrem o s
  | .sand o => Sys2Proof.Machine.execSand o s
  | .sandL o => Sys2Proof.Machine.execSandL o s
  | .sor o => Sys2Proof.Machine.execSor o s
  | .sorL o => Sys2Proof.Machine.execSorL o s
  | .sxor o => Sys2Proof.Machine.execSxor o s
  | .sxorL o => Sys2Proof.Machine.execSxorL o s
  | .sshl o => Sys2Proof.Machine.execSshl o s
  | .sshr o => Sys2Proof.Machine.execSshr o s
  | .ssar o => Sys2Proof.Machine.execSsar o s
  | .smin o => Sys2Proof.Machine.execSmin o s
  | .smax o => Sys2Proof.Machine.execSmax o s
  | .scmp o => Sys2Proof.Machine.execScmp o s
  | .slea o => Sys2Proof.Machine.execSlea o s
  | .smovi o => Sys2Proof.Machine.execSmovi o s
  | .smovhi o => Sys2Proof.Machine.execSmovhi o s
  | .br o => Sys2Proof.Machine.execBr o s
  | .bz o => Sys2Proof.Machine.execBz o s
  | .bnz o => Sys2Proof.Machine.execBnz o s
  | .blt o => Sys2Proof.Machine.execBlt o s
  | .bany o => Sys2Proof.Machine.execBany o s
  | .ball o => Sys2Proof.Machine.execBall o s
  | .bnone o => Sys2Proof.Machine.execBnone o s
  | .jmp o => Sys2Proof.Machine.execJmp o s
  | .call o => Sys2Proof.Machine.execCall o s
  | .ret o => Sys2Proof.Machine.execRet o s
  | .loop o => Sys2Proof.Machine.execLoop o s
  | .exit o => Sys2Proof.Machine.execExit o s
  | .srd o => Sys2Proof.Machine.execSrd o s
  | .swr o => Sys2Proof.Machine.execSwr o s
  | .nop o => Sys2Proof.Machine.execNop o s
  | .trap o => Sys2Proof.Machine.execTrap o s
  | .uret o => Sys2Proof.Machine.execUret o s
  | .ecall o => Sys2Proof.Machine.execEcall o s
  | .halt o => Sys2Proof.Machine.execHalt o s
  | .yield o => Sys2Proof.Machine.execYield o s
  | .evsel o => Sys2Proof.Machine.execEvsel o s
  | .evrd o => Sys2Proof.Machine.execEvrd o s
  | .ctxsave o => Sys2Proof.Machine.execCtxsave o s
  | .ctxrst o => Sys2Proof.Machine.execCtxrst o s
  | .resume o => Sys2Proof.Machine.execResume o s
  | .tlbinv o => Sys2Proof.Machine.execTlbinv o s
  | .vadd o => Sys2Proof.Machine.execVadd o s
  | .vsub o => Sys2Proof.Machine.execVsub o s
  | .vmul o => Sys2Proof.Machine.execVmul o s
  | .vmulh o => Sys2Proof.Machine.execVmulh o s
  | .vmad o => Sys2Proof.Machine.execVmad o s
  | .vadds o => Sys2Proof.Machine.execVadds o s
  | .vsubs o => Sys2Proof.Machine.execVsubs o s
  | .vand o => Sys2Proof.Machine.execVand o s
  | .vor o => Sys2Proof.Machine.execVor o s
  | .vxor o => Sys2Proof.Machine.execVxor o s
  | .vshl o => Sys2Proof.Machine.execVshl o s
  | .vshr o => Sys2Proof.Machine.execVshr o s
  | .vsar o => Sys2Proof.Machine.execVsar o s
  | .vmin o => Sys2Proof.Machine.execVmin o s
  | .vmax o => Sys2Proof.Machine.execVmax o s
  | .vcmp o => Sys2Proof.Machine.execVcmp o s
  | .vsel o => Sys2Proof.Machine.execVsel o s
  | .vmov o => Sys2Proof.Machine.execVmov o s
  | .fadd o => Sys2Proof.Machine.execFadd o s
  | .fsub o => Sys2Proof.Machine.execFsub o s
  | .fmul o => Sys2Proof.Machine.execFmul o s
  | .ffma o => Sys2Proof.Machine.execFfma o s
  | .fmin o => Sys2Proof.Machine.execFmin o s
  | .fmax o => Sys2Proof.Machine.execFmax o s
  | .fcmp o => Sys2Proof.Machine.execFcmp o s
  | .frcp o => Sys2Proof.Machine.execFrcp o s
  | .fsqrt o => Sys2Proof.Machine.execFsqrt o s
  | .frsq o => Sys2Proof.Machine.execFrsq o s
  | .fexp2 o => Sys2Proof.Machine.execFexp2 o s
  | .flog2 o => Sys2Proof.Machine.execFlog2 o s
  | .fsin o => Sys2Proof.Machine.execFsin o s
  | .fcos o => Sys2Proof.Machine.execFcos o s
  | .ftanh o => Sys2Proof.Machine.execFtanh o s
  | .cvt o => Sys2Proof.Machine.execCvt o s
  | .cvts o => Sys2Proof.Machine.execCvts o s
  | .d8pack o => Sys2Proof.Machine.execD8pack o s
  | .d8unp o => Sys2Proof.Machine.execD8unp o s
  | .s10mk o => Sys2Proof.Machine.execS10mk o s
  | .s10ap o => Sys2Proof.Machine.execS10ap o s
  | .xrot o => Sys2Proof.Machine.execXrot o s
  | .xbfly o => Sys2Proof.Machine.execXbfly o s
  | .xshfl o => Sys2Proof.Machine.execXshfl o s
  | .xbcst o => Sys2Proof.Machine.execXbcst o s
  | .xred o => Sys2Proof.Machine.execXred o s
  | .xscan o => Sys2Proof.Machine.execXscan o s
  | .xfind o => Sys2Proof.Machine.execXfind o s
  | .kand o => Sys2Proof.Machine.execKand o s
  | .kor o => Sys2Proof.Machine.execKor o s
  | .kxor o => Sys2Proof.Machine.execKxor o s
  | .kandn o => Sys2Proof.Machine.execKandn o s
  | .kpop o => Sys2Proof.Machine.execKpop o s
  | .kfirst o => Sys2Proof.Machine.execKfirst o s
  | .emget o => Sys2Proof.Machine.execEmget o s
  | .emset o => Sys2Proof.Machine.execEmset o s
  | .emand o => Sys2Proof.Machine.execEmand o s
  | .ld o => Sys2Proof.Machine.execLd o s
  | .st o => Sys2Proof.Machine.execSt o s
  | .lds o => Sys2Proof.Machine.execLds o s
  | .ldsL o => Sys2Proof.Machine.execLdsL o s
  | .sts o => Sys2Proof.Machine.execSts o s
  | .stsL o => Sys2Proof.Machine.execStsL o s
  | .ldl o => Sys2Proof.Machine.execLdl o s
  | .stl o => Sys2Proof.Machine.execStl o s
  | .pf o => Sys2Proof.Machine.execPf o s
  | .disc o => Sys2Proof.Machine.execDisc o s
  | .flush o => Sys2Proof.Machine.execFlush o s
  | .inv o => Sys2Proof.Machine.execInv o s
  | .atom o => Sys2Proof.Machine.execAtom o s
  | .red o => Sys2Proof.Machine.execRed o s
  | .satom o => Sys2Proof.Machine.execSatom o s
  | .fence o => Sys2Proof.Machine.execFence o s
  | .waita o => Sys2Proof.Machine.execWaita o s
  | .trywait o => Sys2Proof.Machine.execTrywait o s
  | .barinit o => Sys2Proof.Machine.execBarinit o s
  | .bararr o => Sys2Proof.Machine.execBararr o s
  | .bartx o => Sys2Proof.Machine.execBartx o s
  | .barwait o => Sys2Proof.Machine.execBarwait o s
  | .barsync o => Sys2Proof.Machine.execBarsync o s
  | .bartrywait o => Sys2Proof.Machine.execBartrywait o s
  | .cinit o => Sys2Proof.Machine.execCinit o s
  | .pushc o => Sys2Proof.Machine.execPushc o s
  | .popc o => Sys2Proof.Machine.execPopc o s
  | .trypopc o => Sys2Proof.Machine.execTrypopc o s
  | .fetchw o => Sys2Proof.Machine.execFetchw o s
  | .spawn o => Sys2Proof.Machine.execSpawn o s
  | .join o => Sys2Proof.Machine.execJoin o s
  | .qbind o => Sys2Proof.Machine.execQbind o s
  | .qunbind o => Sys2Proof.Machine.execQunbind o s
  | .qinfo o => Sys2Proof.Machine.execQinfo o s
  | .mma o => Sys2Proof.Machine.execMma o s
  | .mmaSp o => Sys2Proof.Machine.execMmaSp o s
  | .mmaTri o => Sys2Proof.Machine.execMmaTri o s
  | .scld o => Sys2Proof.Machine.execScld o s
  | .accz o => Sys2Proof.Machine.execAccz o s
  | .accadv o => Sys2Proof.Machine.execAccadv o s
  | .epcfg o => Sys2Proof.Machine.execEpcfg o s
  | .mstat o => Sys2Proof.Machine.execMstat o s
  | .cpy o => Sys2Proof.Machine.execCpy o s
  | .cpyf o => Sys2Proof.Machine.execCpyf o s
  | .cpyg o => Sys2Proof.Machine.execCpyg o s
  | .npost o => Sys2Proof.Machine.execNpost o s
  | .nunpost o => Sys2Proof.Machine.execNunpost o s
  | .nsend o => Sys2Proof.Machine.execNsend o s
  | .nsendt o => Sys2Proof.Machine.execNsendt o s
  | .ncnt o => Sys2Proof.Machine.execNcnt o s
  | .waitc o => Sys2Proof.Machine.execWaitc o s
  | .lmreq o => Sys2Proof.Machine.execLmreq o s
  | .lmrel o => Sys2Proof.Machine.execLmrel o s
  | .lmin o => Sys2Proof.Machine.execLmin o s
  | .lmout o => Sys2Proof.Machine.execLmout o s
  | .ladd o => Sys2Proof.Machine.execLadd o s
  | .lsub o => Sys2Proof.Machine.execLsub o s
  | .lmul o => Sys2Proof.Machine.execLmul o s
  | .llog o => Sys2Proof.Machine.execLlog o s
  | .lcmp o => Sys2Proof.Machine.execLcmp o s
  | .lsel o => Sys2Proof.Machine.execLsel o s
  | .lmm o => Sys2Proof.Machine.execLmm o s
  | .lshf o => Sys2Proof.Machine.execLshf o s
  | .lred o => Sys2Proof.Machine.execLred o s
  | .lmatch o => Sys2Proof.Machine.execLmatch o s
  | .lcnt o => Sys2Proof.Machine.execLcnt o s
  | .ldone o => Sys2Proof.Machine.execLdone o s
  | .opinst o => Sys2Proof.Machine.execOpinst o s
  | .opseal o => Sys2Proof.Machine.execOpseal o s
  | .opuninst o => Sys2Proof.Machine.execOpuninst o s
  | .opstat o => Sys2Proof.Machine.execOpstat o s
  | .opq o => Sys2Proof.Machine.execOpq o s
  | .nopSlot p => Sys2Proof.Machine.execNopSlot p s
  | .vaddSlot x p => Sys2Proof.Machine.execVaddSlot x p s
  | .vsubSlot x p => Sys2Proof.Machine.execVsubSlot x p s
  | .vmulSlot x p => Sys2Proof.Machine.execVmulSlot x p s
  | .vminSlot x p => Sys2Proof.Machine.execVminSlot x p s
  | .vmaxSlot x p => Sys2Proof.Machine.execVmaxSlot x p s
  | .vaddsSlot x p => Sys2Proof.Machine.execVaddsSlot x p s
  | .vsubsSlot x p => Sys2Proof.Machine.execVsubsSlot x p s
  | .vandSlot x p => Sys2Proof.Machine.execVandSlot x p s
  | .vorSlot x p => Sys2Proof.Machine.execVorSlot x p s
  | .vxorSlot x p => Sys2Proof.Machine.execVxorSlot x p s
  | .vshlSlot x p => Sys2Proof.Machine.execVshlSlot x p s
  | .vshrSlot x p => Sys2Proof.Machine.execVshrSlot x p s
  | .vsarSlot x p => Sys2Proof.Machine.execVsarSlot x p s
  | .vmovSlot x p => Sys2Proof.Machine.execVmovSlot x p s
  | .faddSlot x p => Sys2Proof.Machine.execFaddSlot x p s
  | .fsubSlot x p => Sys2Proof.Machine.execFsubSlot x p s
  | .fmulSlot x p => Sys2Proof.Machine.execFmulSlot x p s
  | .fminSlot x p => Sys2Proof.Machine.execFminSlot x p s
  | .fmaxSlot x p => Sys2Proof.Machine.execFmaxSlot x p s
  | .saddSlot x p => Sys2Proof.Machine.execSaddSlot x p s
  | .ssubSlot x p => Sys2Proof.Machine.execSsubSlot x p s
  | .sandSlot x p => Sys2Proof.Machine.execSandSlot x p s
  | .sorSlot x p => Sys2Proof.Machine.execSorSlot x p s
  | .sxorSlot x p => Sys2Proof.Machine.execSxorSlot x p s
  | .sshlSlot x p => Sys2Proof.Machine.execSshlSlot x p s
  | .sshrSlot x p => Sys2Proof.Machine.execSshrSlot x p s
  | .ssarSlot x p => Sys2Proof.Machine.execSsarSlot x p s
  | .sminSlot x p => Sys2Proof.Machine.execSminSlot x p s
  | .smaxSlot x p => Sys2Proof.Machine.execSmaxSlot x p s
  | .longLatencyResultArrival team window => Sys2Proof.Machine.execLongLatencyResultArrival team window s
  | .deferredDestinationWrite team index => Sys2Proof.Machine.execDeferredDestinationWrite team index s
  | .loadStreamReadahead team queue => Sys2Proof.Machine.execLoadStreamReadahead team queue s
  | .starvationTimerExpiry team => Sys2Proof.Machine.execStarvationTimerExpiry team s
  | .watchdogHalf team => Sys2Proof.Machine.execWatchdogHalf team s
  | .watchdogExpiry team => Sys2Proof.Machine.execWatchdogExpiry team s
  | .trywaitTimeout team => Sys2Proof.Machine.execTrywaitTimeout team s
  | .bartrywaitTimeout team => Sys2Proof.Machine.execBartrywaitTimeout team s
  | .waitaEvaluation team => Sys2Proof.Machine.execWaitaEvaluation team s
  | .userInterruptDelivery team => Sys2Proof.Machine.execUserInterruptDelivery team s
  | .engineFaultCharge team => Sys2Proof.Machine.execEngineFaultCharge team s
  | .preemption gang => Sys2Proof.Machine.execPreemption gang s
  | .gangRestore image => Sys2Proof.Machine.execGangRestore image s
  | .gangAdmission dispatch => Sys2Proof.Machine.execGangAdmission dispatch s
  | .blockCompaction core => Sys2Proof.Machine.execBlockCompaction core s
  | .gangRetirement gang => Sys2Proof.Machine.execGangRetirement gang s
  | .dispatchCompletion dispatch => Sys2Proof.Machine.execDispatchCompletion dispatch s
  | .continuationRelease queue => Sys2Proof.Machine.execContinuationRelease queue s
  | .fetchwMailboxWrite gang => Sys2Proof.Machine.execFetchwMailboxWrite gang s
  | .kickRegisterWrite queue value => Sys2Proof.Machine.execKickRegisterWrite queue value s
  | .dispatchPacket queue => Sys2Proof.Machine.execDispatchPacket queue s
  | .waitPacket queue => Sys2Proof.Machine.execWaitPacket queue s
  | .waitPacketComplete queue => Sys2Proof.Machine.execWaitPacketComplete queue s
  | .waitPacketTimeout queue => Sys2Proof.Machine.execWaitPacketTimeout queue s
  | .signalPacket queue => Sys2Proof.Machine.execSignalPacket queue s
  | .nopPacket queue => Sys2Proof.Machine.execNopPacket queue s
  | .malformedPacket queue => Sys2Proof.Machine.execMalformedPacket queue s
  | .faultRecordDelivery function => Sys2Proof.Machine.execFaultRecordDelivery function s
  | .pageWalk core ctx va access => Sys2Proof.Machine.execPageWalk core ctx va access s
  | .tlbInvalidationComplete id => Sys2Proof.Machine.execTlbInvalidationComplete id s
  | .l1Drain core line => Sys2Proof.Machine.execL1Drain core line s
  | .requestForOwnership slice line words => Sys2Proof.Machine.execRequestForOwnership slice line words s
  | .sharedRead slice line => Sys2Proof.Machine.execSharedRead slice line s
  | .forwardRead line => Sys2Proof.Machine.execForwardRead line s
  | .forwardForOwnership line => Sys2Proof.Machine.execForwardForOwnership line s
  | .forwardAcknowledgement line => Sys2Proof.Machine.execForwardAcknowledgement line s
  | .invalidation line => Sys2Proof.Machine.execInvalidation line s
  | .invalidationAck line => Sys2Proof.Machine.execInvalidationAck line s
  | .lineDataTransfer line => Sys2Proof.Machine.execLineDataTransfer line s
  | .writeBack site line => Sys2Proof.Machine.execWriteBack site line s
  | .recall line => Sys2Proof.Machine.execRecall line s
  | .bisnpinv line => Sys2Proof.Machine.execBisnpinv line s
  | .birsp line dirty => Sys2Proof.Machine.execBirsp line dirty s
  | .hostMemRead at_ length cached exclusive => Sys2Proof.Machine.execHostMemRead at_ length cached exclusive s
  | .hostMemWrite at_ bytes => Sys2Proof.Machine.execHostMemWrite at_ bytes s
  | .atomicopCompletion team status old => Sys2Proof.Machine.execAtomicopCompletion team status old s
  | .atomicopTimeout team => Sys2Proof.Machine.execAtomicopTimeout team s
  | .applySlotWrite slice index => Sys2Proof.Machine.execApplySlotWrite slice index s
  | .operatorFire run => Sys2Proof.Machine.execOperatorFire run s
  | .copyCommandStart core command runs => Sys2Proof.Machine.execCopyCommandStart core command runs s
  | .copyCommandComplete core command => Sys2Proof.Machine.execCopyCommandComplete core command s
  | .matrixCommandStart core => Sys2Proof.Machine.execMatrixCommandStart core s
  | .emulationComplete core firmware => Sys2Proof.Machine.execEmulationComplete core firmware s
  | .epilogueDrainStart core => Sys2Proof.Machine.execEpilogueDrainStart core s
  | .epilogueDrainEnd core => Sys2Proof.Machine.execEpilogueDrainEnd core s
  | .loamCommandPerform slice core command runs => Sys2Proof.Machine.execLoamCommandPerform slice core command runs s
  | .networkCommandAccept core => Sys2Proof.Machine.execNetworkCommandAccept core s
  | .packetArrival conn seq buffer offset bytes => Sys2Proof.Machine.execPacketArrival conn seq buffer offset bytes s
  | .sendAcknowledgement conn send status => Sys2Proof.Machine.execSendAcknowledgement conn send status s
  | .connectionFailure change => Sys2Proof.Machine.execConnectionFailure change s
  | .nunpostComplete conn buffer => Sys2Proof.Machine.execNunpostComplete conn buffer s
  | .replayAudit dispatch glin core => Sys2Proof.Machine.execReplayAudit dispatch glin core s
  | .unattributableError scope => Sys2Proof.Machine.execUnattributableError scope s
  | .mgmtResume function id => Sys2Proof.Machine.execMgmtResume function id s
  | .mgmtResumeKill function id => Sys2Proof.Machine.execMgmtResumeKill function id s
  | .icmdVa function => Sys2Proof.Machine.execIcmdVa function s
  | .icmdCtx function => Sys2Proof.Machine.execIcmdCtx function s
  | .icmdAll function => Sys2Proof.Machine.execIcmdAll function s
  | .opslotUninst slice slot => Sys2Proof.Machine.execOpslotUninst slice slot s
  | .bedDestroy slice bed => Sys2Proof.Machine.execBedDestroy slice bed s
  | .biasToDevice region => Sys2Proof.Machine.execBiasToDevice region s
  | .biasToHost region => Sys2Proof.Machine.execBiasToHost region s
  | .biasFlipComplete region => Sys2Proof.Machine.execBiasFlipComplete region s
  | .placementMaskLowWrite function set value => Sys2Proof.Machine.execPlacementMaskLowWrite function set value s
  | .placementMaskHighWrite function set value => Sys2Proof.Machine.execPlacementMaskHighWrite function set value s
  | .islandRequestNominal island => Sys2Proof.Machine.execIslandRequestNominal island s
  | .islandRequestHalf island => Sys2Proof.Machine.execIslandRequestHalf island s
  | .islandRequestQuarter island => Sys2Proof.Machine.execIslandRequestQuarter island s
  | .islandRequestGate island => Sys2Proof.Machine.execIslandRequestGate island s
  | .islandWake island => Sys2Proof.Machine.execIslandWake island s
  | .thermalThrottle island limit => Sys2Proof.Machine.execThermalThrottle island limit s
  | .coreRetest core failure => Sys2Proof.Machine.execCoreRetest core failure s
  | .attestationRequest pa => Sys2Proof.Machine.execAttestationRequest pa s
  | .attestationReportDone => Sys2Proof.Machine.execAttestationReportDone s
  | .mgmtRegisterWrite writer offset value => Sys2Proof.Machine.execMgmtRegisterWrite writer offset value s
  | .functionLevelReset function => Sys2Proof.Machine.execFunctionLevelReset function s
  | .powerOnReset images => Sys2Proof.Machine.execPowerOnReset images s
  | .selfTestComplete failure => Sys2Proof.Machine.execSelfTestComplete failure s
  | .illegalInstruction cause word => Sys2Proof.Machine.execIllegalInstruction cause word s
  | .uncorrectableError site correctable => Sys2Proof.Machine.execUncorrectableError site correctable s
  | .hostSnoop line invalidate => Sys2Proof.Machine.execHostSnoop line invalidate s
  | .cxlCacheResponse line response => Sys2Proof.Machine.execCxlCacheResponse line response s
  | .ownershipTimeout team => Sys2Proof.Machine.execOwnershipTimeout team s
  | .packetRetransmission conn seq buffer offset bytes => Sys2Proof.Machine.execPacketRetransmission conn seq buffer offset bytes s
  | .hardwarePrefetch core ctx va intoL1 => Sys2Proof.Machine.execHardwarePrefetch core ctx va intoL1 s
  | .queueRecordWrite queue valid suspended => Sys2Proof.Machine.execQueueRecordWrite queue valid suspended s
  | .mappingValidClear ctx entry => Sys2Proof.Machine.execMappingValidClear ctx entry s
  | .mgmtGangRestore area ctx => Sys2Proof.Machine.execMgmtGangRestore area ctx s
  | .hostAtomicop op at_ size operand compare => Sys2Proof.Machine.execHostAtomicop op at_ size operand compare s

end Sys2Proof.Machine
end

