-- ==== Sys2Proof/Machine/Turn.lean ====
section
/-! DEFINITION. A turn of a team: the attempt to issue its next instruction, which stalls or issues, and the order of the events that meet at a
boundary; and the time that passes before a turn (R15, R39, R43, R50, R68, R170, R260, R267, R353, R356, R359, R360, R365). -/
namespace Sys2Proof.Machine

/-! ### The replay auditor (R375; log 69) -/

/-- Whether the lines in which a replay has written words exceed the L1 of its core, which is what its core store has beside the blocks of gangs
(R100, R375). -/
def State.overflowsL1 (s : State) (g : Nat) : Bool :=
  let x := s.gangAt g
  let lines := (x.written.map (fun p => p.1 / 128)).eraseDups
  decide (8192 < lines.length + blockBytes (s.blocksOn x.core) / 128)

/-- Whether a change leaves a replay in a case in which its audit is abandoned: a team of it has faulted or its gang has ended, it has met an instruction
of R372, or its dirty words exceed the L1. -/
def State.stopsReplay (s : State) (g : Nat) : Bool :=
  let x := s.gangAt g
  x.state ≠ .resident || x.isSealed || s.overflowsL1 g || (s.teamsOf g).any (fun u =>
    !(s.teamAt u).async.isEmpty || (match (s.teamAt u).status with | .parked _ _ _ _ => true | .ended _ => true | _ => false))

/-- A change by a replay's gang: where it stops the replay, the change is not made and the audit is abandoned. -/
def State.replayed (s t : State) (g : Nat) : State := if (s.gangAt g).replay && t.stopsReplay g then s.abandonReplay g else t

/-- The outcome of a step that a gang makes. -/
def State.onlyReplayed (s : State) (g : Nat) (o : Out) : Out :=
  match o with
  | .next t => .next (s.replayed t g)
  | o => o

/-- Whether an instruction that R372 does not name acts on state beyond its gang, so that a replay cannot make it (DESIGN CHOICE, log 69). -/
def actsBeyond (i : Instr) : Bool :=
  match i with
  | .opinst _ => true
  | .opseal _ => true
  | .opuninst _ => true
  | .ctxsave _ => true
  | .ctxrst _ => true
  | .tlbinv _ => true
  | .ncnt _ => true
  | _ => false

/-- The gang by whose team or command an event is made. -/
def State.gangOf (s : State) (i : Instr) : Option Nat :=
  let team (u : Nat) : Option Nat := some (s.teamAt u).gang
  let command (core id : Nat) : Option Nat := ((s.coreAt core).command id).map (fun x => x.gang)
  match i with
  | .longLatencyResultArrival u _ => team u
  | .deferredDestinationWrite u _ => team u
  | .loadStreamReadahead u _ => team u
  | .waitaEvaluation u => team u
  | .watchdogExpiry u => team u
  | .trywaitTimeout u => team u
  | .bartrywaitTimeout u => team u
  | .userInterruptDelivery u => team u
  | .engineFaultCharge u => team u
  | .copyCommandStart c id _ => command c id
  | .copyCommandComplete c id => command c id
  | _ => none

/-! ### An issue (R68, R175, R359) -/

/-- The windows of a team open in a state. -/
def State.openWindows (s : State) (u : Nat) : Nat := (s.teamAt u).windows.length

/-- A stall of a team's instruction, of which `s1` is the state as it reached issue: it has not issued, so the results due to be written as it issues are
not; the windows that it closes early are closed, and what it asks of the host stays asked (R68, R70, R359; log 86). -/
def State.stalledAs (s s1 : State) (u : Nat) (t : State) : State :=
  let base : State :=
    if s1.openWindows u ≤ t.openWindows u then s
    else
      match s.closeWhere u (fun _ => true) (s.openWindows u - t.openWindows u) with
      | .ok b => b
      | .error b => b
  (base.mapMem (fun m => { m with requests := t.mem.requests })).mapTeam u (fun x => { x with
    stalled := (t.teamAt u).stalled, stuck := (t.teamAt u).stuck })

/-- Whether the attempt that left a team in this state was a stall. -/
def Team.hasStalled (t : Team) : Bool := t.status = .ready && t.stuck.isSome

/-- The results that are due written, and the instruction executed: it consumes a poisoned register, or has its effect, or stalls (R68, R175, R359,
R373). -/
def State.issueWord (s : State) (i : Instr) : Out :=
  let u := s.cur
  let s1 := s.writeDue u (s.teamAt u).windows.length
  if s1.gang.replay && actsBeyond i then .next (s1.abandonReplay s1.team.gang)
  else if s1.readsBad u i then .next (s1.consume u s1.regs.pc 0 0)
  else
    match exec i (s1.noteIssue u i) with
    | .next t => .next (if (t.teamAt u).hasStalled then s.stalledAs s1 u t else t)
    | o => o

/-- A team's next word: the results that are due arrive, the word is fetched and decoded, deferred results that it names are waited for, and it
issues; a word that is not an instruction is refused under R74. -/
def issue (s : State) : Out :=
  let u := s.cur
  ((s.attempt u).arriveDue u).out (fun s1 =>
    (s1.fetch u).out (fun r =>
      match decode (r.1.env u) r.2 with
      | .error c => r.1.issueWord (.illegalInstruction c r.2)
      | .ok i => (r.1.settleRegs u (scalarsOf i)).out (fun s2 => s2.issueWord i)))

/-- The state that an issue of a team would leave. -/
def State.tried (s : State) (u : Nat) : State := s.after (issue { s with cur := u })

/-! ### The events of a boundary (R360) -/

/-- Whether a team's next instruction, issued now, takes a cause of its own: the team parks or ends, enters its handler, or its gang rolls back. -/
def State.ownCause (s : State) (u : Nat) : Bool :=
  let t := s.teamAt u
  let r := s.tried u
  t.canIssue && (s.yieldWaits u).isEmpty &&
    ((match (r.teamAt u).status with | .parked _ _ _ _ => true | .ended _ => true | _ => false)
      || (!t.h && (r.teamAt u).h) || decide ((s.gangAt t.gang).rollbacks < (r.gangAt t.gang).rollbacks))

/-- A team's own cause taken, where it has one. -/
def State.takeOwn (s : State) (u : Nat) : State :=
  if s.ownCause u then s.replayed { s.tried u with cur := s.cur } (s.teamAt u).gang else s

/-- The turn of the team `cur`: its instruction's own cause comes first, then a cause charged to the team, then a user interrupt; else a team that is
ready issues. In the safe state no core runs (R39, R360, R365, R391). -/
def teamTurn (s : State) : Out :=
  let t := s.team
  let charged : Bool := (!t.async.isEmpty || s.gang.heldFault.isSome) && t.atBoundary && !t.stop
  if s.platform.safe then .next s
  else if (charged || (s.interruptOf s.cur).isSome) && !s.ownCause s.cur then
    if charged then exec (.engineFaultCharge s.cur) s else exec (.userInterruptDelivery s.cur) s
  else if !t.canIssue || !(s.yieldWaits s.cur).isEmpty then .next s
  else s.onlyReplayed t.gang (issue s)

/-- The own causes of a gang's teams taken. -/
def State.takeOwns (s : State) (g : Nat) : State := (s.teamsOf g).foldl (fun (s : State) u => s.takeOwn u) s

/-- The gang that a deferred CTXSAVE now stops. -/
def State.savedBy (s : State) (u i : Nat) : Option Nat :=
  match (((s.teamAt u).deferred[i]?).map (fun k => k.op) : Option DeferredOp) with
  | some (.ctxsave g _) => if s.mayPreempt g.toNat then some g.toNat else none
  | _ => none

/-- The state in which an event takes effect: after the own causes of the instructions that stand at the boundary that it meets (R360). -/
def State.atBoundaryOf (s : State) (i : Instr) : State :=
  match i with
  | .engineFaultCharge u => s.takeOwn u
  | .userInterruptDelivery u => s.takeOwn u
  | .preemption g => s.takeOwns g
  | .deferredDestinationWrite u k => (s.savedBy u k).elim s (fun g => s.takeOwns g)
  | _ => s

/-- The turn of another agent: the events of a boundary come after the own cause of the instruction that stands there (R360), and rollbacks that
waited for started commands go on (R373). -/
def agentTurn (i : Instr) (s : State) : Out :=
  let s1 := s.atBoundaryOf i
  match (s1.gangOf i).elim (exec i s1) (fun g => s1.onlyReplayed g (exec i s1)) with
  | .next t => .next t.finishRolls
  | o => o

/-! ### Time (R15, R39, R43, R50, R170, R260, R267, R353) -/

/-- Whether each team's next instruction stalls, found by an issue that is not kept (R39). -/
def State.refreshed (s : State) : State :=
  { s with teams := s.teams.mapValues (fun u t =>
    if !t.canIssue then t
    else
      let r := (s.tried u).teamAt u
      if r.hasStalled then { t with stalled := r.stalled, stuck := r.stuck } else { t with stalled := none, stuck := none }) }

/-- A wait with ticks passed (R50). -/
def Wait.pass (w : Wait) (ticks : Nat) : Wait := { w with ticks := w.ticks + ticks }

/-- A team's starvation timer with cycles of its core passed: it counts while the team is ready, stands while its instruction stalls or it yields, and
is held at zero in the other states; at 224 the team takes forced priority (R39, R43). -/
def Team.starved (t : Team) (cycles : Nat) : Team :=
  if !t.canIssue || t.h then { t with starve := 0, forced := false }
  else if t.isReady then
    let n := min 255 (t.starve + cycles)
    { t with starve := n, forced := t.forced || decide (224 ≤ n) }
  else t

/-- A wait's watchdog or hint with ticks passed; a watchdog that passes half its limit sets UIEN.WDWP, once (R50, R353). The watchdog of a wait issued in
the user handler counts as any other does, by the row 'In a blocking wait' of R43 (DESIGN CHOICE, log 94). -/
def Team.waited (t : Team) (ticks limit cycle : Nat) : Team :=
  match t.status with
  | .waiting w =>
    let w1 := w.pass ticks
    let half : Bool := w1.hint.isNone && !w1.half && decide (limit < 2 * w1.ticks)
    let t1 := { t with status := .waiting { w1 with half := w1.half || half } }
    if half then t1.pend cycle 0x200 else t1
  | _ => t

/-- The count of a stalled push, which runs while the epilogue is stopped (R260). -/
def Team.passStall (t : Team) (ticks : Nat) (stopped : Bool) : Team :=
  { t with stalled := t.stalled.map (fun n => if stopped then n + ticks else 0) }

/-- A yielding team no longer waits for a team that has ceased to be ready (R365). -/
def Team.pruned (t : Team) (ready : Nat → Bool) : Team := { t with yieldTo := t.yieldTo.filter ready }

/-- A host queue's WAIT with time passed (R267). -/
def HostQueue.pass (q : HostQueue) (ticks : Nat) : HostQueue :=
  { q with wait := q.wait.map (fun w => { w with ticks := w.ticks + ticks }) }

/-- The clocks, timers and watchdogs advanced (R15, R39, R50, R267). -/
def State.elapse (s : State) (ticks cycles : Nat) : State :=
  { s with
    tick := s.tick + ticks
    cycles := s.cycles + cycles
    teams := s.teams.mapValues (fun u t =>
      (((t.starved (s.coreCycles (s.coreOf u) cycles)).waited ticks (s.watchdogLimit u) (s.cycles + cycles)).pruned
        (fun v => (s.teamAt v).isReady)).passStall ticks (s.coreAt (s.coreOf u)).epilogueStopped)
    hub := { s.hub with queues := s.hub.queues.mapValues (fun _ q => q.pass ticks) } }

/-- The cycles in which teams stall on a queue register or an engine queue counted (R356). -/
def State.countStalls (s : State) (cycles : Nat) : State :=
  s.teams.foldl (fun (s : State) p =>
    if p.2.canIssue && p.2.stuck = some true then s.count p.2.gang 7 (s.coreCycles (s.coreOf p.1) cycles) else s) s

/-- Whether the last tick of a time, of which `waited` ticks have passed a limit, lies before a tick; none stands for the end of the time that passes. -/
def State.endedBy (s : State) (waited limit : Nat) (before : Option Nat) : Bool :=
  before.all (fun d => decide (s.tick + limit < d + waited))

/-- The waits and stalled pushes of teams whose time has passed before a tick ended (R50, R202, R260, R347). -/
def State.lapseTeam (s : State) (u : Nat) (before : Option Nat) : State :=
  match (s.teamAt u).status with
  | .waiting w =>
    let limit := s.watchdogLimit u
    if w.live limit || !s.endedBy w.ticks (w.hint.getD limit) before then s else s.replayed (s.endLapsed u w) (s.teamAt u).gang
  | .ready => if before.isNone && s.pushLapsed u (s.watchdogLimit u) then s.expire u else s
  | _ => s

/-- The WAIT of a host queue whose watchdog's limit has passed before a tick: its signal is read a last time, else it completes as expired (R267). -/
def State.lapseQueue (s : State) (q : Nat) (before : Option Nat) : State :=
  let x := s.queueAt q
  match x.wait with
  | none => s
  | some w =>
    if w.ticks ≤ x.limit || !s.endedBy w.ticks x.limit before then s
    else
      let s1 := s.after (execWaitPacketComplete q (s.mapQueue q (fun y => { y with wait := some { w with ticks := x.limit } })))
      if (s1.queueAt q).wait.isNone then s1 else s.after (execWaitPacketTimeout q s)

/-- What has waited beyond its time before a tick ended. -/
def State.lapse (s : State) (before : Option Nat) : State :=
  let s1 := s.teams.foldl (fun (s : State) p => s.lapseTeam p.1 before) s
  s1.hub.queues.foldl (fun (s : State) p => s.lapseQueue p.1 before) s1

/-- A drain of a line of an L1 that is due in a tick: the tick, the core and the line. -/
structure DueDrain where
  tick : Nat
  core : Nat
  line : Nat
  deriving DecidableEq, Repr

/-- A drain put in its place by the tick in which it is due. -/
def insertDrain (d : DueDrain) (l : List DueDrain) : List DueDrain :=
  match l with
  | [] => [d]
  | e :: r => if d.tick < e.tick then d :: e :: r else e :: insertDrain d r

/-- The drains due of L1 lines with a dirty word that was stored 16,384 ticks ago, or earlier, the first due first; a line that a failed write-back
holds is not drained (R170, R218). -/
def State.dueDrains (s : State) : List DueDrain :=
  s.cores.foldl (fun (ds : List DueDrain) p =>
    p.2.l1.foldl (fun (ds : List DueDrain) l =>
      if l.dirty ≠ 0#32 && !l.held && decide (l.since + 16384 ≤ s.tick) then insertDrain ⟨l.since + 16384, p.1, l.line⟩ ds else ds) ds) []

/-- The drains that are due, each after what had waited beyond its time before that tick (R50, R170). -/
def State.drainDue (s : State) : State :=
  s.dueDrains.foldl (fun (s : State) d => (s.lapse (some d.tick)).drainLine d.core d.line) s

/-- The islands whose request is to be gated gated, where they are idle (R16, R392). -/
def State.gateIdle (s : State) : State :=
  s.platform.islands.foldl (fun (s : State) p => if p.2.request = 3 && !p.2.gated && s.mayGate p.1 then s.gate p.1 else s) s

/-- Time passed before a turn's mover acts: what was ready, stalled or waiting has been so for all of it. An island to be gated that is idle is gated
where nominal cycles pass (log 51). -/
def State.pass (s : State) (ticks cycles : Nat) : State :=
  let s1 := (((s.refreshed.countStalls cycles).elapse ticks cycles).drainDue).lapse none
  if cycles = 0 then s1 else s1.gateIdle

end Sys2Proof.Machine
end

