-- ==== Sys2Proof/Machine/Step.lean ====
section
/-! DEFINITION. One step of the device: the next turn of the agenda, or with an empty agenda a turn of the team `cur` (log 1). -/
namespace Sys2Proof.Machine

/-- One step. -/
def step (s : State) : Host.Outcome State Fault Refusal :=
  match s.agenda with
  | [] =>
    let s1 := s.pass 1 1
    if s1.team.status = .absent then .next s1 else teamTurn { s1 with cur := s1.arbitrate s1.cur }
  | t :: rest =>
    let s1 := ({ s with agenda := rest }).pass t.ticks t.cycles
    match t.mover with
    | .agent i => agentTurn i s1
    | .team u =>
      if (s1.teamAt u).status = .absent then .fault .noSuchTeam else teamTurn { s1 with cur := s1.arbitrate u }

/-- `s` with the instruction whose bits are `w` stored where `step` fetches its next instruction, so that the next step issues it. The words
of Tlaust have 64 bits, so the bits at and above `nbits` are zero (log 20). -/
def State.withFetchWord (s : State) (nbits w : Nat) : State := s.place (BitVec.ofNat 64 (w % 2 ^ nbits))

end Sys2Proof.Machine
end

