-- ==== Sys2Proof/Certificates/Slice0/Obligations.lean ====
section
/-! DEFINITION. The statements for the provers, each `def Obligations.<Name> : Prop`, and before them the words in which they speak. -/
namespace Sys2Proof.Claims
open Sys2Proof.Machine

/-! ### Words of the statements -/

/-- The instruction after the issuing team's one does not stand in the local window, so that an instruction which does not transfer control
goes on (R124). -/
def nextStands (s : State) : Prop := (s.regs.pc + 8).toNat ≠ windowBase

/-- The poisoned register words that a write of s(d) replaces whole (R175). -/
def scal (d : Nat) : BadReg → Bool := fun b => decide (b = .scalar d)

/-- The poisoned register words that a write of k(n) replaces whole (R175). -/
def mask (n : Nat) : BadReg → Bool := fun b => decide (b = .mask n)

/-- The poisoned register words that a write of the named lanes of v(n) replaces whole (R175). -/
def vect (n : Nat) (lanes : Nat → Bool) : BadReg → Bool := fun b => match b with | .vector m l => m = n && lanes l | _ => false

/-- `s` after the issuing team's instruction has left the registers `r` and the program counter `pc`: the windows open before it count it
(R68), the team is ready, register words that it has written whole, which `clean` names, are not poisoned (R175), and nothing else of the
device has changed. -/
def issued (s : State) (r : TeamRegs) (pc : DWord) (clean : BadReg → Bool := fun _ => false) : State :=
  s.setTeam { s.team with
    regs := { r with pc := pc }
    windows := s.team.windows.map (fun w => { w with left := w.left - 1 })
    status := .ready
    stalled := none
    stuck := none
    bad := s.team.bad.filter (fun b => !clean b) }

/-- The same, at the next address. -/
def after (s : State) (r : TeamRegs) (clean : BadReg → Bool := fun _ => false) : State := issued s r (s.regs.pc + 8) clean

/-- The effect of the issuing team's instruction has given `t`, and the team goes on at the next address. -/
def onward (t : State) : State := issued t t.regs (t.regs.pc + 8)

/-- The state in which the gangs of the issuing team's dispatch have ended with a cause charged to it (R45, R359). -/
def ends (s : State) (c : Cause) (value : DWord) (access : Byte) (address : DWord) : State :=
  s.endTeam s.cur c s.regs.pc value access address

/-- The signed or the unsigned value of a 64-bit word. -/
def val (signed : Bool) (x : DWord) : Int := if signed then x.toInt else x.toNat

end Sys2Proof.Claims

/-! ### Words, decoding and the step -/

namespace Sys2Proof.Claims
open Sys2Proof.Machine

/-- Nothing comes before an issue of the issuing team: the device is not in the safe state, the team is in no state of R43 but ready, no cause
is charged to it, no user interrupt is deliverable, and it waits for no team after a YIELD (R39, R360, R365, R391). -/
def free (s : State) : Prop :=
  s.platform.safe = false ∧ s.team.status = .ready ∧ s.team.stop = false ∧ s.team.async = [] ∧ s.gang.heldFault = none ∧
    s.interruptOf s.cur = none ∧ s.yieldWaits s.cur = []

/-- The state in which the issue slot of a turn of team `u` falls to the team that the arbiter picks (R39). -/
def issuing (s : State) (u : Nat) : State := { s with cur := s.arbitrate u }

/-- The results that the issue of the team's next instruction writes have arrived, and the word at its program counter is fetched as `w` in the
state `t` (R68, R164). -/
def fetches (s : State) (w : DWord) (t : State) : Prop :=
  ∃ s1, (s.attempt s.cur).arriveDue s.cur = .ok s1 ∧ s1.fetch s.cur = .ok (t, w)

/-- The word at the issuing team's program counter decodes to `i`, and no deferred result that `i` names is outstanding; `t` is the state in which
`i` is about to issue. -/
def fetchesInstr (s : State) (i : Instr) (t : State) : Prop :=
  ∃ w s1, fetches s w s1 ∧ decode (s1.env s.cur) w = .ok i ∧ s1.settleRegs s.cur (scalarsOf i) = .ok t

/-- The state `t` with the results that are due written to the issuing team (R68). -/
def due (t : State) : State := t.writeDue t.cur (t.teamAt t.cur).windows.length

/-- The state in which an instruction about to issue executes: the results that are due are written (R68), and the issue is counted (R39, R356). -/
def issueState (t : State) (i : Instr) : State := (due t).noteIssue t.cur i

/-- A change `x` that the gang `g` makes in the state `s`: where `g` is the gang of a replay and the change is one that stops the replay, it is not
made and the audit is abandoned (R375; log 69). -/
def kept (s : State) (g : Nat) (x : State) : State :=
  if (s.gangAt g).replay = true ∧ x.stopsReplay g = true then s.abandonReplay g else x

/-- What the issue of `i` in the state `t`, fetched in `s`, gives. An instruction that reads a poisoned register or record is not executed: the team
consumes it (R175). Else it is the outcome of `exec i`; or, where that leaves the team before the same instruction, a stall, which is no issue:
nothing of it stays but the windows it has closed early and what it has asked of the host (R70, R359). The team of a replay leaves the replay where
the instruction acts beyond its gang (log 69). -/
def issueGives (s t : State) (i : Instr) (o : Out) : Prop :=
  let g := s.team.gang
  ((due t).gang.replay = true → actsBeyond i = true → o = .next (kept s g ((due t).abandonReplay (due t).team.gang))) ∧
  ((due t).gang.replay = false ∨ actsBeyond i = false →
    ((due t).readsBad t.cur i = true → o = .next (kept s g ((due t).consume t.cur (due t).regs.pc 0 0))) ∧
    ((due t).readsBad t.cur i = false →
      (∀ x, exec i (issueState t i) = .next x → (x.teamAt t.cur).hasStalled = false → o = .next (kept s g x)) ∧
      (∀ x, exec i (issueState t i) = .next x → (x.teamAt t.cur).hasStalled = true → o = .next (kept s g (t.stalledAs (due t) t.cur x))) ∧
      (∀ f, exec i (issueState t i) = .fault f → o = .fault f) ∧ (∀ r, exec i (issueState t i) = .refused r → o = .refused r)))

/-- What the turn of the event `i` gives in the state `b` of the boundary that it meets: its outcome, the change of a replay's gang as `kept` says, and
rollbacks that waited for commands that had started go on (R373, R375). -/
def eventGives (b : State) (i : Instr) (o : Out) : Prop :=
  (∀ x, exec i b = .next x → b.gangOf i = none → o = .next x.finishRolls) ∧
  (∀ x g, exec i b = .next x → b.gangOf i = some g → o = .next (kept b g x).finishRolls) ∧
  (∀ f, exec i b = .fault f → o = .fault f) ∧ (∀ r, exec i b = .refused r → o = .refused r)

/-- A team of a gang that stands on its core. -/
def seated (s : State) (u : Nat) : Prop :=
  (s.gangAt (s.teamAt u).gang).state = .resident ∧ u / 16 = (s.teamAt u).gang ∧ u % 16 < (s.gangAt (s.teamAt u).gang).nteams

end Sys2Proof.Claims

open Sys2Proof Sys2Proof.Machine Sys2Proof.Claims in
/-- A step runs the decoded instruction (R39, R52, R68, R74, R175, R359). With no turn on the agenda a tick and a cycle pass and the team that the
arbiter picks for the turn of `cur` issues; a turn that names a team gives it the issue slot in the same way. Where nothing comes before the
issue and the word decodes to `i`, the results that are due are written and the step is what `issueGives` says of `i`. A turn that names a step of
another agent passes its time and takes that step (the events of a boundary come after the own cause of the instruction that stands there, R360),
and one that names no team of the device stops the run. The model's choices: the agenda (log 1), what a replay cannot make (log 69), the address 0
that the record of a consumed register has (log 85), and what a stalled attempt keeps (log 86). -/
def Obligations.StepRunsTheDecodedInstruction : Prop :=
  ((∀ (s p t : State) (i : Instr), s.agenda = [] → p = s.pass 1 1 → p.team.status ≠ .absent →
     free (issuing p p.cur) → fetchesInstr (issuing p p.cur) i t → issueGives (issuing p p.cur) t i (step s)) ∧
   (∀ (s p t : State) (i : Instr) (ticks cycles u : Nat) (rest : List Turn), s.agenda = ⟨ticks, cycles, .team u⟩ :: rest →
     p = ({ s with agenda := rest }).pass ticks cycles → (p.teamAt u).status ≠ .absent →
     free (issuing p u) → fetchesInstr (issuing p u) i t → issueGives (issuing p u) t i (step s))) ∧
  (∀ (s p : State) (ticks cycles : Nat) (rest : List Turn), p = ({ s with agenda := rest }).pass ticks cycles →
     (∀ i, s.agenda = ⟨ticks, cycles, .agent i⟩ :: rest →
       eventGives (p.atBoundaryOf i) i (step s) ∧
       ((∀ u k, i ≠ .engineFaultCharge u ∧ i ≠ .userInterruptDelivery u ∧ i ≠ .preemption u ∧ i ≠ .deferredDestinationWrite u k) →
         p.atBoundaryOf i = p) ∧
       (∀ u, (i = .engineFaultCharge u ∨ i = .userInterruptDelivery u) → p.ownCause u = false → p.atBoundaryOf i = p)) ∧
     ((∀ q ∈ p.gangs, q.2.rolling = false) → p.finishRolls = p) ∧
     (∀ u, s.agenda = ⟨ticks, cycles, .team u⟩ :: rest → (p.teamAt u).status = .absent → step s = .fault .noSuchTeam))

open Sys2Proof Sys2Proof.Machine Sys2Proof.Claims in
/-- A word that is no instruction of the team is refused under R74 with the cause of the first check that fails: the dispatch ends with
it, and TVAL and the record hold the word; in a replay its audit is abandoned (R375; log 69). -/
def Obligations.RefusedWordEndsTheDispatch : Prop :=
  ∀ (s p s1 : State) (w : DWord) (c : Cause), s.agenda = [] → p = s.pass 1 1 → p.team.status ≠ .absent →
    free (issuing p p.cur) → fetches (issuing p p.cur) w s1 → seated s1 s1.cur → decode (s1.env s1.cur) w = .error c →
    step s = .next (kept (issuing p p.cur) (issuing p p.cur).team.gang (ends (issueState s1 (.illegalInstruction c w)) c w 0 w))

open Sys2Proof Sys2Proof.Machine in
/-- Decode and encode agree: the word of a well-formed instruction decodes to it, with every field at every value that the encoding admits
(R52 to R66, R72 to R74). -/
def Obligations.DecodeOfEncodeIsTheInstruction : Prop :=
  ∀ (env : Env) (i : Instr) (w : DWord), i.wellFormed env = true → encode i = some w → decode env w = .ok i

open Sys2Proof Sys2Proof.Machine in
/-- No two words are one instruction, and no bit of a word is dropped: a word that decodes is the word of the instruction it decodes to,
which is well-formed (R52 to R66, R74). -/
def Obligations.DecodedWordIsTheEncoding : Prop :=
  ∀ (env : Env) (i : Instr) (w : DWord), decode env w = .ok i → i.wellFormed env = true ∧ encode i = some w

open Sys2Proof Sys2Proof.Machine in
/-- Words that the manual writes out decode to the instructions they stand for (R123, R131, R134): format, op, fields, immediate. -/
def Obligations.WrittenWordsDecode : Prop :=
  decode Env.widest 0x00E0060405240000 = .ok (.scmp ⟨.reg 6, .reg 4, .reg 5, 2, .s64, 0, none, 0⟩) ∧
  decode Env.widest 0x00E006050F040400 = .ok (.scmp ⟨.reg 6, .reg 5, .imm 15, 0, .s64, 0, none, 0⟩) ∧
  decode Env.widest 0x80000404000000C8 = .ok (.saddL ⟨4, 4, 200, 0⟩) ∧
  decode Env.widest 0x84A00400FFFFFFFF = .ok (.loop ⟨4, 0, 0xFFFFFFFF, 0⟩) ∧
  decode Env.widest 0x0810150900000800 = .ok (.swr ⟨.reg 0x15, .imm 9, .reg 0, 0, .untyped, 0, none, 0⟩) ∧
  decode Env.widest 0x0802090D00000000 = .ok (.srd ⟨.reg 9, .reg 0x0D, .reg 0, 0, .untyped, 0, none, 2⟩) ∧
  decode Env.widest 0x0800030000000090 = .ok (.srd ⟨.reg 3, .reg 0, .reg 0, 0, .untyped, 0, some 1, 0⟩)

open Sys2Proof Sys2Proof.Machine in
/-- What reset leaves (R13, R322, R331): no gang and no team, every plot in cache mode, no operator slot assigned, every cache and table
empty but for function record 0, which is valid, no fault record, and TICK at zero (R104; log 9). -/
def Obligations.ResetLeavesTheDeviceEmpty : Prop :=
  State.reset.teams = [] ∧ State.reset.gangs = [] ∧
  (∀ sl p, (State.reset.sliceAt sl).modes.get .cache p = .cache) ∧
  (∀ sl n, ((State.reset.sliceAt sl).slots.get .none n).valid = false ∧ ((State.reset.sliceAt sl).slots.get .none n).op = none) ∧
  (∀ sl, (State.reset.sliceAt sl).beds = []) ∧ (∀ i, State.reset.platform.islands.get .none i = ⟨0, 0, false⟩) ∧
  (∀ c, (State.reset.coreAt c).l1 = [] ∧ (State.reset.coreAt c).tlb = [] ∧ (State.reset.coreAt c).cmds = []) ∧
  State.reset.mem.copies = [] ∧ State.reset.mem.dir = [] ∧
  (∀ f, (State.reset.fnAt f).valid = decide (f = 0)) ∧ (∀ c, (State.reset.ctxAt c).valid = false) ∧
  (∀ q, (State.reset.queueAt q).valid = false) ∧ (∀ d, (State.reset.dispatchAt d).valid = false) ∧
  State.reset.hub.records = [] ∧ State.reset.tick = 0

/-! ### Scalar instructions and control flow -/

namespace Sys2Proof.Claims
open Sys2Proof.Machine

/-- The result of a scalar instruction from the values of its sources (R117 to R123), with the register it is written to. -/
def scalarResult (s : State) (i : Instr) : Option (BitVec 8 × DWord) :=
  let src (o : Ops) (f : DWord → DWord → DWord) : Option (BitVec 8 × DWord) := some (o.d.num, f (s.regs.source o.a) (s.regs.source o.b))
  let imm (o : LOps) (f : DWord → DWord → DWord) : Option (BitVec 8 × DWord) := some (o.d, f (s.sreg o.a.toNat) (o.imm.signExtend 64))
  match i with
  | .sadd o => src o (fun a b => a + b)
  | .saddL o => imm o (fun a b => a + b)
  | .ssub o => src o (fun a b => a - b)
  | .smul o => src o (fun a b => a * b)
  | .smulL o => imm o (fun a b => a * b)
  | .smulh o => src o (fun a b => BitVec.ofInt 64 (val o.ty.isSigned a * val o.ty.isSigned b / 2 ^ 64))
  | .sdiv o => src o (fun a b => if b = 0 then -1 else if o.ty.isSigned then a.sdiv b else a / b)
  | .srem o => src o (fun a b => if b = 0 then a else if o.ty.isSigned then a.srem b else a % b)
  | .sand o => src o (fun a b => a &&& b)
  | .sandL o => imm o (fun a b => a &&& b)
  | .sor o => src o (fun a b => a ||| b)
  | .sorL o => imm o (fun a b => a ||| b)
  | .sxor o => src o (fun a b => a ^^^ b)
  | .sxorL o => imm o (fun a b => a ^^^ b)
  | .sshl o => src o (fun a b => a <<< (b.toNat % 64))
  | .sshr o => src o (fun a b => a >>> (b.toNat % 64))
  | .ssar o => src o (fun a b => a.sshiftRight (b.toNat % 64))
  | .smin o => src o (fun a b => if val o.ty.isSigned a ≤ val o.ty.isSigned b then a else b)
  | .smax o => src o (fun a b => if val o.ty.isSigned a ≤ val o.ty.isSigned b then b else a)
  | .scmp o =>
    let r (p : Int → Int → Bool) : Option (BitVec 8 × DWord) :=
      src o (fun a b => if p (val o.ty.isSigned a) (val o.ty.isSigned b) then 1 else 0)
    match o.var.toNat with
    | 0 => r (fun a b => a = b)
    | 1 => r (fun a b => a ≠ b)
    | 2 => r (fun a b => a < b)
    | 3 => r (fun a b => a ≤ b)
    | 4 => r (fun a b => a > b)
    | 5 => r (fun a b => a ≥ b)
    | _ => none
  | .slea o => src o (fun a b => a + (b <<< o.var.toNat))
  | .smovi o => imm o (fun _ x => x)
  | .smovhi o => some (o.d, o.imm ++ (s.sreg o.d.toNat).setWidth 32)
  | _ => none

/-- Whether a branch is taken, with its word offset (R125). -/
def branchTaken (s : State) (i : Instr) : Option (Prop × BitVec 32) :=
  let mask (o : LOps) (p : Bool → Bool → Bool) : Prop :=
    ∃ l, l < s.tw ∧ l < 1024 ∧ p (s.regs.em.getLsbD l) ((s.regs.kreg o.a.toNat).getLsbD l) = true
  match i with
  | .br o => some (True, o.imm)
  | .bz o => some (s.sreg o.a.toNat = 0, o.imm)
  | .bnz o => some (s.sreg o.a.toNat ≠ 0, o.imm)
  | .blt o => some ((s.sreg o.d.toNat).toInt < (s.sreg o.a.toNat).toInt, o.imm)
  | .bany o => some (mask o (fun e k => e && k), o.imm)
  | .ball o => some (¬mask o (fun e k => e && !k), o.imm)
  | .bnone o => some (¬mask o (fun e k => e && k), o.imm)
  | _ => none

/-- The target of an L-form transfer, computed exactly (R124). -/
def target (s : State) (imm : BitVec 32) : Int := s.regs.pc.toNat + 8 * imm.toInt

/-- A target that a transfer accepts: aligned, in range, and outside the local window (R124). -/
def targetStands (t : Int) : Prop := t % 8 = 0 ∧ 0 ≤ t ∧ t < windowBase

/-- The cause of the first check of R124 that a target fails. -/
def targetCause (t : Int) : Cause :=
  if t % 8 ≠ 0 then .misalignment else if t < 0 ∨ 2 ^ 57 ≤ t then .pageNotPresent else .windowKind

end Sys2Proof.Claims

open Sys2Proof Sys2Proof.Machine Sys2Proof.Claims in
/-- A branch that is taken goes to its target where the target passes R124, and one that is not taken to the next address; no register
changes. A taken branch whose target fails a check changes no register and no PC, and ends the dispatch with the cause of that check. JMP
and RET go to the address in s(a), read before the link is written; JMP and CALL write PC + 8 to their link register together with the
transfer, and with s0 write no link; with a target that fails they write no link either (R126, R127). The model's choice: the access bits 0x04 of
the record of a target that fails (log 82). -/
def Obligations.TransfersGoToTheirTargets : Prop :=
  (∀ (s : State) (i : Instr) (taken : Prop) (imm : BitVec 32), branchTaken s i = some (taken, imm) →
     (taken → targetStands (target s imm) → exec i s = .next (issued s s.regs (BitVec.ofInt 64 (target s imm)))) ∧
     (¬taken → nextStands s → exec i s = .next (after s s.regs)) ∧
     (taken → ¬targetStands (target s imm) →
       exec i s = .next (ends s (targetCause (target s imm)) (BitVec.ofInt 64 (target s imm)) 0x04 (BitVec.ofInt 64 (target s imm))))) ∧
  (∀ (s : State) (o : Ops) (l : LOps),
     let t : Int := (s.regs.source o.a).toNat
     (targetStands t → exec (.jmp o) s =
         .next (issued s (s.regs.setS o.d.num.toNat (s.regs.pc + 8)) (s.regs.source o.a) (scal o.d.num.toNat)) ∧
       exec (.ret o) s = .next (issued s s.regs (s.regs.source o.a))) ∧
     (¬targetStands t → exec (.jmp o) s = .next (ends s (targetCause t) (s.regs.source o.a) 0x04 (s.regs.source o.a)) ∧
       exec (.ret o) s = .next (ends s (targetCause t) (s.regs.source o.a) 0x04 (s.regs.source o.a))) ∧
     (targetStands (target s l.imm) →
       exec (.call l) s = .next (issued s (s.regs.setS l.d.toNat (s.regs.pc + 8)) (BitVec.ofInt 64 (target s l.imm)) (scal l.d.toNat))) ∧
     (¬targetStands (target s l.imm) → exec (.call l) s =
       .next (ends s (targetCause (target s l.imm)) (BitVec.ofInt 64 (target s l.imm)) 0x04 (BitVec.ofInt 64 (target s l.imm)))))

open Sys2Proof Sys2Proof.Machine Sys2Proof.Claims in
/-- LOOP (R128): the counter takes n = s(d) − 1, discarded on s0; with n not zero control goes to the target, else to the next address; a
target that fails R124 leaves the counter alone. The model's choice: the access bits 0x04 of the record of a target that fails (log 82). -/
def Obligations.LoopCountsDownAndBranches : Prop :=
  ∀ (s : State) (o : LOps),
    let n := s.sreg o.d.toNat - 1
    (n ≠ 0 → targetStands (target s o.imm) →
      exec (.loop o) s = .next (issued s (s.regs.setS o.d.toNat n) (BitVec.ofInt 64 (target s o.imm)) (scal o.d.toNat))) ∧
    (n = 0 → nextStands s → exec (.loop o) s = .next (after s (s.regs.setS o.d.toNat n) (scal o.d.toNat))) ∧
    (n ≠ 0 → ¬targetStands (target s o.imm) → exec (.loop o) s =
      .next (ends s (targetCause (target s o.imm)) (BitVec.ofInt 64 (target s o.imm)) 0x04 (BitVec.ofInt 64 (target s o.imm))))

open Sys2Proof Sys2Proof.Machine Sys2Proof.Claims in
/-- A scalar instruction completes with its result in its destination, a write to s0 being discarded, and changes nothing else: no other
register, no flag, no special register and no byte of memory (a register that it writes is no longer poisoned, R175); at the last word below the
local window it ends the dispatch with 0x12, and the register write stands. The division corners of R120 neither trap nor raise a flag (R97, R117
to R124). The model's choice: the access bits 0x04 of the record of a fall into the window (log 82). -/
def Obligations.ScalarInstructionWritesItsResult : Prop :=
  (∀ (s : State) (i : Instr) (d : BitVec 8) (x : DWord), scalarResult s i = some (d, x) → nextStands s →
     exec i s = .next (after s (s.regs.setS d.toNat x) (scal d.toNat))) ∧
  (∀ (s : State) (i : Instr) (d : BitVec 8) (x : DWord), scalarResult s i = some (d, x) → ¬nextStands s →
     exec i s = .next (ends (s.setS d.toNat x) .windowKind (s.regs.pc + 8) 0x04 (s.regs.pc + 8))) ∧
  (∀ (s : State) (o : Ops), nextStands s →
     let a := s.regs.source o.a
     let b := s.regs.source o.b
     let w (x : DWord) : Out := .next (after s (s.regs.setS o.d.num.toNat x) (scal o.d.num.toNat))
     (b = 0 → exec (.sdiv o) s = w 0xFFFFFFFFFFFFFFFF ∧ exec (.srem o) s = w a) ∧
     (a = 0x8000000000000000 → b = 0xFFFFFFFFFFFFFFFF → o.ty = .s64 →
       exec (.sdiv o) s = w 0x8000000000000000 ∧ exec (.srem o) s = w 0) ∧
     (b ≠ 0 → o.ty = .n64 → exec (.sdiv o) s = w (BitVec.ofNat 64 (a.toNat / b.toNat)) ∧
       exec (.srem o) s = w (BitVec.ofNat 64 (a.toNat % b.toNat))))

/-! ### Special registers and the system instructions -/

namespace Sys2Proof.Claims
open Sys2Proof.Machine

/-- The value that SRD reads from a special register of scalar kind, zero-extended (R104, R132). -/
def specialValue (s : State) (n : Nat) : Option DWord :=
  match n with
  | 0x01 => some (BitVec.ofNat 64 s.gang.tw)
  | 0x02 => some (BitVec.ofNat 64 s.team.teamid)
  | 0x03 => some (BitVec.ofNat 64 s.gang.nteams)
  | 0x04 => some (BitVec.ofNat 64 s.gang.x)
  | 0x05 => some (BitVec.ofNat 64 s.gang.y)
  | 0x06 => some (BitVec.ofNat 64 s.gang.z)
  | 0x07 => some (BitVec.ofNat 64 s.gang.glin)
  | 0x08 => some (BitVec.ofNat 64 s.gang.dispatch)
  | 0x09 => some (s.classOf s.cur)
  | 0x0A => some (BitVec.ofNat 64 s.gang.core)
  | 0x0B => some (BitVec.ofNat 64 (dieOf s.gang.core))
  | 0x10 => some (s.regs.fflags.setWidth 64)
  | 0x11 => some s.regs.uhandler
  | 0x12 => some s.regs.ucause
  | 0x13 => some s.regs.uepc
  | 0x14 => some s.regs.uval
  | 0x15 => some (s.regs.uien.setWidth 64)
  | _ => none

/-- The registers after an SWR of `x` to a special register (R133). -/
def specialWritten (r : TeamRegs) (n : Nat) (x : DWord) : Option TeamRegs :=
  let address : DWord := (0 : BitVec 7) ++ (x.extractLsb' 3 54 ++ (0 : BitVec 3))
  match n with
  | 0x10 => some { r with fflags := x.extractLsb' 0 5 }
  | 0x11 => some { r with uhandler := address }
  | 0x12 => some { r with ucause := x.extractLsb' 63 1 ++ ((0 : BitVec 46) ++ x.extractLsb' 0 17) }
  | 0x13 => some { r with uepc := address }
  | 0x14 => some { r with uval := x }
  | 0x15 => some { r with
      uien := (r.uien.extractLsb' 8 3 &&& ~~~(x.extractLsb' 8 3)) ++ ((0 : BitVec 4) ++ x.extractLsb' 0 4) }
  | _ => none

/-- A team at the entry to its handler (R71, R106, R363): `n` and `code` for UCAUSE, the address for UEPC, and the pending bit cleared. -/
def entered (t : Team) (isInt : Bool) (n code : BitVec 8) (epc : DWord) (pending : BitVec 11) : Team :=
  { t with
    h := true
    frozen := t.windows
    windows := []
    status := .ready
    stalled := none
    stuck := none
    regs := { t.regs with
      pc := t.regs.uhandler
      ucause := (if isInt then 1 else 0 : BitVec 1) ++ ((0 : BitVec 46) ++ ((if t.regs.uien.getLsbD 3 then 1 else 0 : BitVec 1) ++ (n ++ code)))
      uepc := epc
      uien := t.regs.uien &&& ~~~(0x008 ||| pending) } }

/-- The pending bits of UIEN that the core has set in this cycle (R134). -/
def fresh (s : State) : BitVec 11 := if s.team.fresh.1 = s.cycles then s.team.fresh.2 else 0

/-- A team that has one instruction more counted in its open windows (R68). -/
def counted (t : Team) : Team := { t with windows := t.windows.map (fun w => { w with left := w.left - 1 }) }

end Sys2Proof.Claims

open Sys2Proof Sys2Proof.Machine Sys2Proof.Claims in
/-- TRAP n with a handler set and not active: its deferred results are written and its outstanding loads have their values, and the team
enters UHANDLER with code 0x04 and N = n, UEPC at the next address, GE moved to PGE and cleared, its windows frozen and H set; with
UHANDLER 0 or inside the handler it ends the dispatch with 0x04. URET with H = 1 and a UEPC that passes R124: the handler's windows close,
the interrupted ones unfreeze, GE takes PGE, H is cleared, the interval is sealed, and the team goes on at UEPC; with H = 0 it raises 0x01
(R71, R106, R124, R358, R359, R363, R365, R372). The model's choices: TVAL of a refused URET (log 6), and that a TRAP leaves UVAL as it is (log 81). -/
def Obligations.HandlersAreEnteredAndLeft : Prop :=
  (∀ (s s1 s2 : State) (o : Ops), s.settle s.cur = .ok s1 → s1.arriveQuiet s1.cur = .ok s2 →
     s2.regs.uhandler ≠ 0 → s2.team.h = false →
     exec (.trap o) s = .next (s2.setTeam (entered
       (counted { s2.team with tcause := 0x04, tepc := s2.regs.pc, tval := 0 }) false o.a.num 0x04 (s2.regs.pc + 8) 0))) ∧
  (∀ (s s1 s2 : State) (o : Ops), s.settle s.cur = .ok s1 → s1.arriveQuiet s1.cur = .ok s2 →
     s2.regs.uhandler = 0 ∨ s2.team.h = true → exec (.trap o) s = .next (ends s2 .userTrap 0 0 0)) ∧
  (∀ (s : State) (o : Ops),
     (∀ s1, s.team.h = true → s.closeAll s.cur = .ok s1 → targetStands s1.regs.uepc.toNat →
       ∃ t, exec (.uret o) s = .next t ∧ t.regs = { s1.regs with
           pc := s1.regs.uepc
           uien := (s1.regs.uien &&& ~~~0x008) ||| (if s1.regs.ucause.getLsbD 16 then 0x008 else 0) } ∧
         t.team.h = false ∧ t.team.windows = s1.team.frozen ∧ t.team.frozen = [] ∧ (t.gangAt s1.team.gang).isSealed = true ∧
         (∀ u, u ≠ s1.cur → t.teamAt u = s1.teamAt u) ∧ t.mem = s1.mem ∧ t.hub = s1.hub) ∧
     (s.team.h = false → exec (.uret o) s = .next (ends s .illegalInstruction 0 0 0)))

open Sys2Proof Sys2Proof.Machine Sys2Proof.Claims in
/-- ECALL parks its team with cause 0x05 under a new fault id: the record holds s(a) in its address field and the ECALL's address, the id
holds the team, UVAL and TVAL are 0 (log 31 says which fields a rule gives), and the interval is sealed; no other team changes (R273,
R359, R362, R365, R372). HALT n waits for the team's windows and ends the dispatch with 0x04, n in the record's address field; EXIT
closes the windows, discards those a handler's entry froze, and the team has exited and b0 expects one team fewer, unless a change of b0 that
comes after it has been made in the same cycle, which it lets come first (R341) (R45, R46, R129, R342, R365). -/
def Obligations.EcallHaltAndExitStopTheTeam : Prop :=
  (∀ (s : State) (o : Ops), ∃ t, exec (.ecall o) s = .next t ∧
     (let fn := s.fnOf (s.ctxOf s.cur)
      let id := (s.fnAt fn).nextId
      t.team = { s.team with
        tcause := 0x05, tepc := s.regs.pc, tval := 0
        status := .parked fn id .environmentCall (.ecall o.d.num.toNat)
        stalled := none
        stuck := none
        regs := { s.regs with uval := 0 } } ∧
      t.hub.records = s.hub.records ++ [⟨fn, id, 0, 0, .environmentCall, s.regs.source o.a, s.regs.pc, s.gang.dispatch, s.gang.glin, s.gang.core,
        s.team.teamid, (s.dispatchOf s.cur).queue % 512⟩] ∧
      t.hub.held = s.hub.held ++ [⟨fn, id, .environmentCall, none, [.team s.cur]⟩] ∧
      (t.gangAt s.team.gang).isSealed = true ∧ (∀ u, u ≠ s.cur → t.teamAt u = s.teamAt u) ∧ t.mem = s.mem)) ∧
  (∀ (s s1 : State) (o : Ops), s.closeAll s.cur = .ok s1 →
     exec (.halt o) s = .next (ends s1 .userTrap 0 0 (o.a.num.setWidth 64)) ∧
     (s.tooLate s.team.gang 0 = false → exec (.exit o) s = .next ((s1.setTeam { s1.team with
       status := .exited, windows := [], frozen := [], yieldTo := [], held := [], stalled := none, stuck := none }).leaveBarrier
         s1.team.gang s1.team.slot s1.team.teamid)))

open Sys2Proof Sys2Proof.Machine Sys2Proof.Claims in
/-- What the end of a dispatch leaves (R45): every team of a resident or saved gang of it has ended with the cause charged to it, but for one that is
part-way in a host atomic, which is to end with that cause at the end of the atomic; no gang of it is resident or saved, the dispatch admits no
more, and its completion carries the first cause. The model's choice: the other gangs end in the step of the cause (log 7). -/
def Obligations.EndOfADispatchEndsItsGangs : Prop :=
  ∀ (s : State) (u g i : Nat) (c : Cause) (pc v : DWord) (acc : Byte) (addr : DWord),
    let d := (s.gangAt (s.teamAt u).gang).dispatch
    let t := s.endTeam u c pc v acc addr
    (s.gangAt g).dispatch = d → ((s.gangAt g).state = .resident ∨ (s.gangAt g).state = .saved) → i < (s.gangAt g).nteams → i < 16 →
    (t.teamAt (16 * g + i)).status =
        (match (s.teamAt (16 * g + i)).status with | .atomicOp w => .atomicOp { w with ending := some c } | _ => .ended c) ∧
      (t.gangAt g).state = .ended ∧
      (t.dispatchAt d).failed = some ((s.dispatchAt d).failed.getD c) ∧ (t.dispatchAt d).live = 0

open Sys2Proof Sys2Proof.Machine Sys2Proof.Claims in
/-- SRD completes with the special register's value in d, and with LANE's number in every active lane of a vector register; SWR completes
with the register written as R133's table says, a pending bit that the core sets in the same cycle staying set (R134), and nothing else
changed. SRD of CYC or TICK samples the count as it issues, CYC being no less than the team has read before (log 83): with la = 0
and no older window due the sample is written at once, else a window is opened that will write it. NOP and YIELD change no register;
EVSEL and EVRD complete as the event counters' rules say: the count, the count that a gang lost with bit 63, or 0 (R15, R68, R104, R132 to R134, R175,
R356, R357, R365). -/
def Obligations.SpecialRegistersAndCountersReadAndWrite : Prop :=
  (∀ (s : State) (o : Ops), nextStands s →
     (∀ x, specialValue s o.a.num.toNat = some x →
       exec (.srd o) s = .next (after s (s.regs.setS o.d.num.toNat x) (scal o.d.num.toNat))) ∧
     (o.a.num = 0 → exec (.srd o) s = .next (after s (s.regs.setLanes s.tw o.d.num.toNat
       (fun l => if s.regs.active s.tw o.mask l then some (BitVec.ofNat 32 l) else none)) (vect o.d.num.toNat (s.regs.active s.tw o.mask)))) ∧
     (∀ r, specialWritten s.regs o.d.num.toNat (s.regs.source o.a) = some r →
       exec (.swr o) s = .next (after s (if o.d.num = 0x15 then { r with uien := r.uien ||| (s.regs.uien &&& fresh s) } else r)))) ∧
  (∀ (s s1 : State) (o : Ops) (x : DWord), nextStands s → s.team.windows.length < 8 →
     ((o.a.num = 0x0C ∧ x = BitVec.ofNat 64 (max (s.cycOf s.gang.core) s.team.cyc) ∧ s1 = s.setTeam { s.team with cyc := x.toNat }) ∨
       (o.a.num = 0x0D ∧ x = BitVec.ofNat 64 s.tick ∧ s1 = s)) →
     (o.la = 0 → (counted s.team).windows.any (fun w => w.left = 0) = false →
       exec (.srd o) s = .next (after s1 (s1.regs.setS o.d.num.toNat x) (scal o.d.num.toNat))) ∧
     (o.la ≠ 0 ∨ (counted s.team).windows.any (fun w => w.left = 0) = true →
       exec (.srd o) s = .next ((after s1 s1.regs).mapTeam s1.cur (fun t =>
         { t with windows := t.windows ++ [⟨s.regs.pc, o.la.toNat, .ready [.scal o.d.num.toNat x] 0⟩] })))) ∧
  (∀ (s : State) (o : Ops), nextStands s →
     exec (.nop o) s = .next (after s s.regs) ∧
     exec (.yield o) s = .next (after (s.mapTeam s.cur (fun t => { t with yieldTo := s.pipeRivals s.cur })) s.regs)) ∧
  (∀ (s : State) (o : Ops), nextStands s →
     let ev := (s.regs.source o.a).toNat
     let c := (s.coreAt s.gang.core).counters.get .none o.var.toNat
     let g := s.team.gang
     let d := o.d.num.toNat
     (11 < ev → exec (.evsel o) s = .next (after s (s.regs.setS d 2) (scal d))) ∧
     (ev ≤ 11 → c.gang.isSome → c.gang ≠ some g → exec (.evsel o) s = .next (after s (s.regs.setS d 1) (scal d))) ∧
     (ev ≤ 11 → c.gang = none ∨ c.gang = some g → ∃ t, exec (.evsel o) s = .next t ∧ t.regs = { s.regs.setS d 0 with pc := s.regs.pc + 8 } ∧
       (t.coreAt s.gang.core).counters.get .none o.var.toNat = ⟨if ev = 0 then none else some g, ev, 0⟩) ∧
     (c.gang = some g → exec (.evrd o) s = .next (after s (s.regs.setS d (c.value.setWidth 64)) (scal d))) ∧
     (∀ v, c.gang ≠ some g → (s.gangAt g).lapsed.find o.var.toNat = some v →
       exec (.evrd o) s = .next (after s (s.regs.setS d ((1 : BitVec 1) ++ ((0 : BitVec 15) ++ v))) (scal d))) ∧
     (c.gang ≠ some g → (s.gangAt g).lapsed.find o.var.toNat = none → exec (.evrd o) s = .next (after s (s.regs.setS d 0) (scal d))))

/-! ### Vector, floating-point, conversion, cross-lane and mask instructions -/

namespace Sys2Proof.Claims
open Sys2Proof.Machine

/-- Lane `l` of an operand of a vector instruction: a lane of a vector register, an immediate or a scalar broadcast, as `ty` delivers it
(R57, R135). -/
def opnd (s : State) (ty : ElemType) (x : Src) (l : Nat) : Word32 := s.regs.laneSource ty x [] l

/-- The signed or unsigned value of a lane. -/
def laneVal (signed : Bool) (x : Word32) : Int := if signed then x.toInt else x.toNat

/-- The bits of a lane that its floating-point type reads (R135). -/
def fpBits (ty : ElemType) (x : Word32) : Nat := if ty = .f32 then x.toNat else x.toNat % 2 ^ 16

/-- What an active lane of a vector destination receives from an instruction of classes 3 to 6, with the flags that the lane raises; the
operands that it reads are the lanes of a, b and d (R138 to R157). Long-latency instructions are those of `laneLong`. -/
def laneResult (s : State) (i : Instr) : Option (Ops × (Nat → Word32 × BitVec 5)) :=
  let int (o : Ops) (f : Word32 → Word32 → Word32 → Word32) : Option (Ops × (Nat → Word32 × BitVec 5)) :=
    some (o, fun l => (f (opnd s o.ty o.a l) (opnd s o.ty o.b l) (s.regs.lane o.d.num.toNat l), 0))
  let fp (o : Ops) (f : Fmt → Rnd → Nat → Nat → Nat → Nat × BitVec 5) : Option (Ops × (Nat → Word32 × BitVec 5)) :=
    some (o, fun l =>
      let r := f (fmtOf o.ty) (.ofMode o.mode) (fpBits o.ty (opnd s o.ty o.a l)) (fpBits o.ty (opnd s o.ty o.b l))
        (fpBits o.ty (s.regs.lane o.d.num.toNat l))
      (BitVec.ofNat 32 r.1, r.2))
  let cross (o : Ops) (f : Nat → Nat) : Option (Ops × (Nat → Word32 × BitVec 5)) := some (o, fun l => (opnd s o.ty o.a (f l), 0))
  let clamp (o : Ops) (n : Int) : Word32 :=
    let lo : Int := if o.ty.isSigned then -(2 ^ 31) else 0
    let hi : Int := if o.ty.isSigned then 2 ^ 31 - 1 else 2 ^ 32 - 1
    BitVec.ofInt 32 (if n < lo then lo else if hi < n then hi else n)
  match i with
  | .vadd o => int o (fun a b _ => a + b)
  | .vsub o => int o (fun a b _ => a - b)
  | .vmul o => int o (fun a b _ => a * b)
  | .vmulh o => int o (fun a b _ => BitVec.ofInt 32 (laneVal o.ty.isSigned a * laneVal o.ty.isSigned b / 2 ^ 32))
  | .vmad o => int o (fun a b d => a * b + d)
  | .vadds o => int o (fun a b _ => clamp o (laneVal o.ty.isSigned a + laneVal o.ty.isSigned b))
  | .vsubs o => int o (fun a b _ => clamp o (laneVal o.ty.isSigned a - laneVal o.ty.isSigned b))
  | .vand o => int o (fun a b _ => a &&& b)
  | .vor o => int o (fun a b _ => a ||| b)
  | .vxor o => int o (fun a b _ => a ^^^ b)
  | .vshl o => int o (fun a b _ => a <<< (b.toNat % 32))
  | .vshr o => int o (fun a b _ => a >>> (b.toNat % 32))
  | .vsar o => int o (fun a b _ => a.sshiftRight (b.toNat % 32))
  | .vmin o => int o (fun a b _ => if laneVal o.ty.isSigned a ≤ laneVal o.ty.isSigned b then a else b)
  | .vmax o => int o (fun a b _ => if laneVal o.ty.isSigned a ≤ laneVal o.ty.isSigned b then b else a)
  | .vsel o => some (o, fun l =>
      (if (s.regs.kreg o.var.toNat).getLsbD l then opnd s o.ty o.a l else opnd s o.ty o.b l, 0))
  | .vmov o => int o (fun _ b _ => b)
  | .fadd o => fp o (fun f m a b _ => fadd f m a b)
  | .fsub o => fp o (fun f m a b _ => fsub f m a b)
  | .fmul o => fp o (fun f m a b _ => fmul f m a b)
  | .ffma o => fp o (fun f m a b d => ffma f m a b d)
  | .fmin o => fp o (fun f _ a b _ => fminmax f false a b)
  | .fmax o => fp o (fun f _ a b _ => fminmax f true a b)
  | .cvt o => some (o, fun l => convert false ((ElemType.ofCode o.var).getD .untyped) o.ty (.ofMode o.mode) (opnd s o.ty o.a l))
  | .cvts o => some (o, fun l => convert true ((ElemType.ofCode o.var).getD .untyped) o.ty (.ofMode o.mode) (opnd s o.ty o.a l))
  | .d8pack o => some (o, fun l =>
      let r := match s10Decode (opnd s o.ty o.b l).toNat with
        | .zero => (0x00, 0)
        | .nan => (0x80, 0)
        | .value n d => toDM8 ((exactOf o.ty (opnd s o.ty o.a l).toNat).1.divBy n d) (exactOf o.ty (opnd s o.ty o.a l).toNat).2
      (putByte (s.regs.lane o.d.num.toNat l) (o.var.toNat % 4) r.1, r.2))
  | .d8unp o => some (o, fun l =>
      match s10Decode (opnd s o.ty o.b l).toNat with
      | .zero => (0, 0)
      | .nan => (BitVec.ofNat 32 (fmtOf o.ty).canonical, 0)
      | .value n d =>
        let v := dm8Decode ((opnd s o.ty o.a l).toNat / 2 ^ (8 * (o.var.toNat % 4)))
        let r := rnd (fmtOf o.ty) (.ofMode o.mode) (v.mulBy n d)
        (BitVec.ofNat 32 r.1, r.2))
  | .s10mk o => some (o, fun l =>
      let g := 8 * 2 ^ o.var.toNat
      let lanes := ((List.range g).map (fun j => l / g * g + j)).filter (fun j => s.regs.active s.tw o.mask j)
      (BitVec.ofNat 32 (groupScale (lanes.map (fun j => (exactOf o.ty (opnd s o.ty o.a j).toNat).1))), 0))
  | .s10ap o => some (o, fun l =>
      match s10Decode (opnd s o.ty o.b l).toNat with
      | .zero => (0, 0)
      | .nan => (BitVec.ofNat 32 (fmtOf o.ty).canonical, 0)
      | .value n d =>
        let v := exactOf o.ty (opnd s o.ty o.a l).toNat
        let r := rnd (fmtOf o.ty) (.ofMode o.mode) (if o.var = 0 then v.1.divBy n d else v.1.mulBy n d)
        (BitVec.ofNat 32 r.1, r.2 ||| invalidIf v.2))
  | .xrot o =>
    let seg := if o.var = 0 then s.tw else 2 ^ o.var.toNat
    cross o (fun l => l / seg * seg + (l % seg + ((s.regs.source o.b).toInt % (seg : Int)).toNat) % seg)
  | .xbfly o => cross o (fun l => l ^^^ (s.regs.source o.b).toNat % s.tw)
  | .xbcst o => cross o (fun _ => (s.regs.source o.b).toNat % s.tw)
  | _ => none

/-- The same for the long-latency instructions (R145, R151). -/
def laneLong (s : State) (i : Instr) : Option (Ops × (Nat → Word32 × BitVec 5)) :=
  let special (o : Ops) (fn : SpecialFn) : Option (Ops × (Nat → Word32 × BitVec 5)) :=
    some (o, fun l => let r := specialFn fn o.ty (opnd s o.ty o.a l); (BitVec.ofNat 32 r.1, r.2))
  match i with
  | .frcp o => special o .rcp
  | .fsqrt o => special o .sqrt
  | .frsq o => special o .rsq
  | .fexp2 o => special o .exp2
  | .flog2 o => special o .log2
  | .fsin o => special o .sin
  | .fcos o => special o .cos
  | .ftanh o => special o .tanh
  | .xshfl o => some (o, fun l => (opnd s o.ty o.a ((opnd s .s32 o.b l).toNat % s.tw), 0))
  | _ => none

/-- The write of a vector destination: a value in each active lane and none in the others (R61). -/
def laneWrite (s : State) (o : Ops) (f : Nat → Word32 × BitVec 5) : RegWrite :=
  .vec o.d.num.toNat ((List.range s.tw).map (fun l => if s.regs.active s.tw o.mask l then some (f l).1 else none))

/-- The flags of the active lanes together (R82). -/
def laneFlags (s : State) (o : Ops) (f : Nat → Word32 × BitVec 5) : BitVec 5 :=
  (List.range s.tw).foldl (fun (n : BitVec 5) l => if s.regs.active s.tw o.mask l then n ||| (f l).2 else n) 0

/-- Every operand of a vector instruction is a register, an immediate or a scalar: no queue register. -/
def noQueue (o : Ops) : Prop :=
  (∃ n, o.d = .reg n) ∧ (∀ n, o.a ≠ .queue n) ∧ (∀ n, o.b ≠ .queue n)

/-- `s` with a result written to the issuing team: its register writes, after which the words that they replace whole are not poisoned, and its
flags; with NV, UIEN.NVP is set in this cycle (R68, R82, R134, R175). -/
def wrote (s : State) (ws : List RegWrite) (fl : BitVec 5) : State :=
  s.setTeam { s.team with
    regs := (s.regs.writeAll s.tw ws).raise fl
    bad := s.team.bad.filter (fun b => !ws.any (fun w => w.covers b))
    fresh := if fl.getLsbD 4 then (s.cycles, fresh s ||| 0x400) else s.team.fresh }

/-- Every access of the stream that the issuing team's handler interrupted has its value (R71). -/
def frozenRead (s : State) : Prop := ∀ w ∈ s.team.frozen, ∃ ws fl, w.res = .ready ws fl

/-- Nothing of the issuing team is outstanding: no open window, no access of an interrupted stream without its value, and no deferred result. -/
def quiet (s : State) : Prop := s.team.windows = [] ∧ frozenRead s ∧ s.team.deferred = []

/-- The number of the lowest lane below TW that a condition holds of, or all ones. -/
def lowestLane (s : State) (p : Nat → Bool) : DWord :=
  match (List.range s.tw).find? p with
  | some l => BitVec.ofNat 64 l
  | none => 0xFFFFFFFFFFFFFFFF

/-- The op of a vector instruction that may have queue operands, and its fields (R109, R110). -/
def vectorOp (i : Instr) : Option (Nat × Ops) :=
  match i.fForm with
  | some (op, o) => if 0x0C0 ≤ op && op ≤ 0x186 then some (op, o) else none
  | none => none

/-- The full instruction whose effect a slot of a D word has: d is its destination and its first source (R64, R66). -/
def slotInstr (sop : Sop) (x : Slot) : Instr :=
  let b : Src := match x.b with | .reg n => .reg n | .scalar n => .scalar n | .imm n => .imm n
  let o (ty : ElemType) : Ops := ⟨.reg x.d, .reg x.d, b, 0, ty, 0, x.mask, 0⟩
  let int : Ops := o (if x.dt = 0 then .s32 else .n32)
  let fp : Ops := o (if x.dt = 2 then .f32 else .f16)
  let scal : Ops := o (if x.dt = 0 then .s64 else .n64)
  match sop with
  | .vadd => .vadd int
  | .vsub => .vsub int
  | .vmul => .vmul int
  | .vmin => .vmin int
  | .vmax => .vmax int
  | .vadds => .vadds int
  | .vsubs => .vsubs int
  | .vand => .vand int
  | .vor => .vor int
  | .vxor => .vxor int
  | .vshl => .vshl int
  | .vshr => .vshr int
  | .vsar => .vsar int
  | .vmov => .vmov int
  | .fadd => .fadd fp
  | .fsub => .fsub fp
  | .fmul => .fmul fp
  | .fmin => .fmin fp
  | .fmax => .fmax fp
  | .sadd => .sadd scal
  | .ssub => .ssub scal
  | .sand => .sand scal
  | .sor => .sor scal
  | .sxor => .sxor scal
  | .sshl => .sshl scal
  | .sshr => .sshr scal
  | .ssar => .ssar scal
  | .smin => .smin scal
  | .smax => .smax scal

/-- The write and the flags of a slot: those of its full instruction, and nothing for a NOP slot. -/
def slotEffect (s : State) (x : Short) : List RegWrite × BitVec 5 :=
  match x with
  | .nop => ([], 0)
  | .op sop x =>
    match scalarResult s (slotInstr sop x), laneResult s (slotInstr sop x) with
    | some (d, v), _ => ([.scal d.toNat v], 0)
    | none, some (o, f) => ([laneWrite s o f], laneFlags s o f)
    | none, none => ([], 0)

end Sys2Proof.Claims

open Sys2Proof Sys2Proof.Machine Sys2Proof.Claims in
/-- A lane instruction without queue operands completes: every active lane of its destination receives the lane's result, every other lane
keeps its value, the flags of the active lanes are ORed into FFLAGS, and nothing else changes: no scalar, no mask, no byte of memory
(R61, R82, R135 to R154). -/
def Obligations.LaneInstructionWritesItsActiveLanes : Prop :=
  ∀ (s : State) (i : Instr) (o : Ops) (f : Nat → Word32 × BitVec 5), laneResult s i = some (o, f) → noQueue o → nextStands s →
    exec i s = .next (onward (wrote s [laneWrite s o f] (laneFlags s o f)))

open Sys2Proof Sys2Proof.Machine Sys2Proof.Claims in
/-- A long-latency lane instruction without queue operands (the special functions and XSHFL): with la = 0 and no older window due its result
and flags are written as it completes; else it opens a window that holds them, and until the window closes no register and no flag changes
(R68, R82, R145, R151). A special function whose rounding the model's intervals do not decide has a free value (log 16). -/
def Obligations.LongLaneInstructionWritesOrOpensAWindow : Prop :=
  ∀ (s : State) (i : Instr) (o : Ops) (f : Nat → Word32 × BitVec 5), laneLong s i = some (o, f) → noQueue o → nextStands s →
    s.team.windows.length < 8 →
    (o.la = 0 → (counted s.team).windows.any (fun w => w.left = 0) = false →
      exec i s = .next (onward (wrote s [laneWrite s o f] (laneFlags s o f)))) ∧
    (o.la ≠ 0 ∨ (counted s.team).windows.any (fun w => w.left = 0) = true →
      exec i s = .next ((after s s.regs).mapTeam s.cur (fun t =>
        { t with windows := t.windows ++ [⟨s.regs.pc, o.la.toNat, .ready [laneWrite s o f] (laneFlags s o f)⟩] })))

namespace Sys2Proof.Claims
open Sys2Proof.Machine

/-- Every bit of the summary of a mask says whether its word holds a bit (R22). -/
def summarised (m : Mask) : Prop := ∀ w, w < 32 → ((summary m).getLsbD w = true ↔ ∃ l, l < 32 ∧ m.getLsbD (32 * w + l) = true)

/-- The fields of a mask function: no modifier bit, no masking, no la, and type, variant and mode zero (R137, R159). -/
def plainOps (o : Ops) : Prop :=
  o.d = .reg o.d.num ∧ o.a = .reg o.a.num ∧ o.b = .reg o.b.num ∧ o.ty = .untyped ∧ o.var = 0 ∧ o.mode = 0 ∧ o.mask = none ∧ o.la = 0

end Sys2Proof.Claims

open Sys2Proof Sys2Proof.Machine Sys2Proof.Claims in
/-- VCMP and FCMP write a whole mask register: the relation in each active lane and 0 in every other, under which the summary is recomputed; FCMP
raises the flags of the active lanes (R22, R139, R144). XFIND writes the number of the lowest active lane that equals b, or all ones (R158). A
variant of VCMP above 5, and for XFIND a type other than s32 and n32 or a variant other than 0, is no instruction. -/
def Obligations.ComparisonsWriteMasksAndFindWritesALane : Prop :=
  ∀ (s : State) (o : Ops), noQueue o → nextStands s → s.tw ≤ 1024 →
    (o.var.toNat < 6 → ∃ k : BitVec 1024,
      summarised k ∧ (∀ l, l < 1024 → k.getLsbD l = (s.regs.active s.tw o.mask l &&
        (match o.var.toNat with
          | 0 => decide (laneVal o.ty.isSigned (opnd s o.ty o.a l) = laneVal o.ty.isSigned (opnd s o.ty o.b l))
          | 1 => decide (laneVal o.ty.isSigned (opnd s o.ty o.a l) ≠ laneVal o.ty.isSigned (opnd s o.ty o.b l))
          | 2 => decide (laneVal o.ty.isSigned (opnd s o.ty o.a l) < laneVal o.ty.isSigned (opnd s o.ty o.b l))
          | 3 => decide (laneVal o.ty.isSigned (opnd s o.ty o.a l) ≤ laneVal o.ty.isSigned (opnd s o.ty o.b l))
          | 4 => decide (laneVal o.ty.isSigned (opnd s o.ty o.a l) > laneVal o.ty.isSigned (opnd s o.ty o.b l))
          | _ => decide (laneVal o.ty.isSigned (opnd s o.ty o.a l) ≥ laneVal o.ty.isSigned (opnd s o.ty o.b l))))) ∧
      exec (.vcmp o) s = .next (onward (wrote s [.mask o.d.num.toNat k] 0))) ∧
    (∃ k : BitVec 1024,
      let r (l : Nat) := fcmp (fmtOf o.ty) o.var.toNat (fpBits o.ty (opnd s o.ty o.a l)) (fpBits o.ty (opnd s o.ty o.b l))
      (∀ l, l < 1024 → k.getLsbD l = (s.regs.active s.tw o.mask l && (r l).1)) ∧
      exec (.fcmp o) s = .next (onward (wrote s [.mask o.d.num.toNat k] (laneFlags s o (fun l => (0, (r l).2)))))) ∧
    exec (.xfind o) s = .next (after s (s.regs.setS o.d.num.toNat (lowestLane s
      (fun l => s.regs.active s.tw o.mask l && opnd s o.ty o.a l = (s.regs.source o.b).setWidth 32))) (scal o.d.num.toNat)) ∧
    (∀ env, ((Instr.vcmp o).wellFormed env = true → o.var.toNat < 6) ∧
      ((Instr.xfind o).wellFormed env = true → (o.ty = .s32 ∨ o.ty = .n32) ∧ o.var = 0))

open Sys2Proof Sys2Proof.Machine Sys2Proof.Claims in
/-- XRED and XSCAN of integers under add: every active lane receives the sum modulo 2^32 of the active lanes, of all of them for XRED and of
those up to itself for XSCAN; no flag is raised. Of every type and operation they combine in the fixed order of the tree and the scan of
R90, so that a floating-point result has one value, lane 0 of a scan being combined with the identity; the flags of the combinations are raised,
of a scan those of active lanes, and of a reduction unless no lane is active (log 92) (R23, R78, R82, R90, R155 to R157). -/
def Obligations.ReductionsCombineInAFixedOrder : Prop :=
  (∀ (s : State) (o : Ops), noQueue o → nextStands s → o.ty.isInt = true → o.var = 0 → s.tw ≤ 1024 →
     let sum (n : Nat) : Word32 :=
       (List.range n).foldl (fun (x : Word32) l => if s.regs.active s.tw o.mask l then x + opnd s o.ty o.a l else x) 0
     exec (.xred o) s = .next (onward (wrote s [laneWrite s o (fun _ => (sum s.tw, 0))] 0)) ∧
     exec (.xscan o) s = .next (onward (wrote s [laneWrite s o (fun l => (sum (l + 1), 0))] 0))) ∧
  (∀ (s : State) (o : Ops), noQueue o → nextStands s →
     let entering := (List.range s.tw).map (fun l => if s.regs.active s.tw o.mask l then opnd s o.ty o.a l else redIdentity o.ty o.var.toNat)
     let some_ := (List.range s.tw).any (fun l => s.regs.active s.tw o.mask l)
     let tree := treeReduce o.ty o.var.toNat 10 entering 0
     let first := scanFirst o.ty o.var.toNat (entering.headD 0)
     let scan := scanAll o.ty o.var.toNat 1 (s.regs.active s.tw o.mask) 11 (first.1 :: entering.drop 1)
       (if s.regs.active s.tw o.mask 0 then first.2 else 0)
     exec (.xred o) s = .next (onward (wrote s [laneWrite s o (fun _ => (tree.1.headD 0, 0))] (if some_ then tree.2 else 0))) ∧
     exec (.xscan o) s = .next (onward (wrote s [laneWrite s o (fun l => (scan.1.getD l 0, 0))] scan.2)))

open Sys2Proof Sys2Proof.Machine Sys2Proof.Claims in
/-- A vector instruction with a load stream in a and la = 0 pops the vector at the stream's position, with every lane read whatever is
active: the position advances by one and the instruction computes with the vector read; one whose stream is exhausted, or whose queue
register is not bound to a stream or to the epilogue, raises 0x03 and pops nothing (R109, R110). A lane instruction whose destination is
a queue register bound to a store stream stores the active lanes of its result at the stream's position, as ST would, and the position
advances by one; on an exhausted stream it raises 0x03 and stores nothing (R109, R111). The model's choices: a pop's elements are read, and a push is
accepted, as the instruction issues (logs 78, 84). -/
def Obligations.StreamsPopAndPushAtTheirPosition : Prop :=
  (∀ (s : State) (i : Instr) (op : Nat) (o : Ops) (n d : BitVec 8), vectorOp i = some (op, o) → o.a = .queue n → o.d = .reg d →
     (∀ q, o.b ≠ .queue q) →
     (∀ st s1 xs, s.regs.q.find n.toNat = some (.load st) → st.done = false → s.team.windows = [] → frozenRead s → o.la = 0 →
       (s.setBinding s.cur n.toNat (.load { st with pos := st.pos + 1, ahead := st.ahead.drop 1 })).streamRead s.cur st = .ok (s1, xs) →
       nextStands s1 →
       exec i s = .next (onward (wrote s1 [vecWrite d.toNat (vecOp op (vecIn s.tw op o s.regs xs [])).1]
         (vecOp op (vecIn s.tw op o s.regs xs [])).2))) ∧
     ((∀ st, s.regs.q.find n.toNat = some (.load st) → st.done = true) → s.regs.q.find n.toNat ≠ some .epilogue →
       exec i s = .next (ends s .illegalRegister 0 0 0))) ∧
  (∀ (s : State) (i : Instr) (o : Ops) (f : Nat → Word32 × BitVec 5) (n : BitVec 8) (st : Stream), laneResult s i = some (o, f) →
     o.d = .queue n → (∀ q, o.a ≠ .queue q) → (∀ q, o.b ≠ .queue q) → s.regs.q.find n.toNat = some (.store st) →
     (∀ s1 s2 ts, st.done = false → s.team.windows = [] → frozenRead s →
       let lanes := (List.range s.tw).filter (fun l => s.regs.active s.tw o.mask l)
       s.targets s.cur .write 0x02 (lanes.map (fun l => (l, st.address l))) st.ty.size = .ok (s1, ts) →
       s1.writeLanes s.cur 0 ((ts.zip lanes).map (fun p => (p.1.1, p.1.2, leBytes st.ty.size (f p.2).1.toNat))) = .ok s2 →
       nextStands s2 → s2.cur = s.cur →
       exec i s = .next (onward (wrote (s2.setBinding s.cur n.toNat (.store { st with pos := st.pos + 1, ahead := st.ahead.drop 1 })) []
         (laneFlags s o f)))) ∧
     (st.done = true → exec i s = .next (ends s .illegalRegister 0 0 0)))

open Sys2Proof Sys2Proof.Machine Sys2Proof.Claims in
/-- A D word, whatever its two slots: both slots read every source before either writes, each has the effect of its full instruction, and
their flags are raised together. This covers the constructors of slot 0 from NOP_SLOT to SMAX_SLOT, each with every slot 1 (R64, R66). The
model's choice: a pair of slots that both name s0 is refused (log 21). -/
def Obligations.DualWordReadsBeforeItWrites : Prop :=
  ∀ (s : State) (s0 s1 : Short), nextStands s →
    exec (Instr.ofD s0 s1) s =
      .next (onward (wrote s ((slotEffect s s0).1 ++ (slotEffect s s1).1) ((slotEffect s s0).2 ||| (slotEffect s s1).2)))

open Sys2Proof Sys2Proof.Machine Sys2Proof.Claims in
/-- The mask instructions complete and change only their destination (which is no longer poisoned, R175), whose bits at and above TW are written as
zero and whose summary is recomputed: KAND, KOR, KXOR, KANDN, EMGET write k(d); EMSET and EMAND write em; KPOP counts the lanes of k(a) that are set
and KFIRST names the lowest, or gives all ones. None of them takes a modifier bit, a mask, la, or a type, variant or mode other than zero (R22,
R159). -/
def Obligations.MaskInstructionsCompute : Prop :=
  ∀ (s : State) (o : Ops), nextStands s →
    let x := s.regs.kreg o.a.num.toNat
    let y := s.regs.kreg o.b.num.toNat
    let d := o.d.num.toNat
    exec (.kand o) s = .next (after s (s.regs.setK s.tw d (x &&& y)) (mask d)) ∧
    exec (.kor o) s = .next (after s (s.regs.setK s.tw d (x ||| y)) (mask d)) ∧
    exec (.kxor o) s = .next (after s (s.regs.setK s.tw d (x ^^^ y)) (mask d)) ∧
    exec (.kandn o) s = .next (after s (s.regs.setK s.tw d (x &&& ~~~y)) (mask d)) ∧
    exec (.emget o) s = .next (after s (s.regs.setK s.tw d s.regs.em) (mask d)) ∧
    exec (.emset o) s = .next (after s { s.regs with em := x &&& laneMask s.tw }) ∧
    exec (.emand o) s = .next (after s { s.regs with em := s.regs.em &&& x &&& laneMask s.tw }) ∧
    exec (.kpop o) s =
      .next (after s (s.regs.setS d (BitVec.ofNat 64 ((List.range s.tw).filter (fun l => x.getLsbD l)).length)) (scal d)) ∧
    exec (.kfirst o) s = .next (after s (s.regs.setS d (lowestLane s (fun l => x.getLsbD l))) (scal d)) ∧
    (∀ j l, s.tw ≤ l → l < 1024 → ((s.regs.setK s.tw d j).kreg d).getLsbD l = false) ∧ (∀ m, summarised m) ∧
    (∀ env, ∀ i ∈ [Instr.kand o, .kor o, .kxor o, .kandn o, .kpop o, .kfirst o, .emget o, .emset o, .emand o],
      i.wellFormed env = true → plainOps o)

/-! ### Loads, stores and line operations -/

namespace Sys2Proof.Claims
open Sys2Proof.Machine

/-- The effective addresses of the active lanes, in ascending order: base + (index << sc), the index signed (R181, R184). -/
def laneAddresses (s : State) (o : Ops) (base : DWord) : List (Nat × DWord) :=
  ((List.range s.tw).filter (fun l => s.regs.active s.tw o.mask l)).map (fun l =>
    let index : DWord := match o.b with
      | .reg n => (s.regs.lane n.toNat l).signExtend 64
      | .scalar n => s.sreg n.toNat
      | .imm n => n.signExtend 64
      | .queue _ => 0
    (l, base + (index <<< (o.var.toNat / 4))))

/-- The base of the local window of R102. -/
def windowW : DWord := 0x01FFFFF000000000

/-- The access of a load: destination, scalar or vector, type, policy, and the lanes with their addresses; with its lookahead count
(R184 to R186). -/
def loadOf (s : State) (i : Instr) : Option (PendingLoad × BitVec 4) :=
  match i with
  | .ld o => some (⟨o.d.num.toNat, false, o.ty, o.mode, laneAddresses s o (s.regs.source o.a)⟩, o.la)
  | .ldl o => some (⟨o.d.num.toNat, false, o.ty, 0, laneAddresses s o (windowW + s.regs.source o.a)⟩, o.la)
  | .lds o => some (⟨o.d.num.toNat, true, o.ty, o.mode,
      [(0, s.regs.source o.a + (s.regs.source o.b <<< (o.var.toNat / 4)))]⟩, o.la)
  | .ldsL o => some (⟨o.d.toNat, true, .n64, 0, [(0, s.sreg o.a.toNat + o.imm.signExtend 64)]⟩, o.la)
  | _ => none

/-- The access of a store: the lanes with their addresses, the element size, the bytes that each lane stores, little-endian, and the policy
(R4, R183 to R186). -/
def storeOf (s : State) (i : Instr) : Option (List (Nat × DWord) × Nat × (Nat → List (BitVec 8)) × BitVec 2) :=
  let lane (o : Ops) (l : Nat) : List (BitVec 8) :=
    if o.ty.size = 8 then leBytes 4 (s.regs.lane o.d.num.toNat l).toNat ++ leBytes 4 (s.regs.lane (o.d.num.toNat + 1) l).toNat
    else leBytes o.ty.size (s.regs.lane o.d.num.toNat l).toNat
  match i with
  | .st o => some (laneAddresses s o (s.regs.source o.a), o.ty.size, lane o, o.mode)
  | .stl o => some (laneAddresses s o (windowW + s.regs.source o.a), o.ty.size, lane o, 0)
  | .sts o => some ([(0, s.regs.source o.a + (s.regs.source o.b <<< (o.var.toNat / 4)))], o.ty.size,
      fun _ => leBytes o.ty.size (s.sreg o.d.num.toNat).toNat, o.mode)
  | .stsL o => some ([(0, s.sreg o.a.toNat + o.imm.signExtend 64)], 8, fun _ => leBytes 8 (s.sreg o.d.toNat).toNat, 0)
  | _ => none

/-- Every lane of a local access lies in the local window, is aligned, and names scratchpad or the register aperture; other instructions are
no local accesses (R186). -/
def localStands (s : State) (i : Instr) : Prop :=
  match i with
  | .ldl o => s.localStop .read 0x01 (laneAddresses s o (windowW + s.regs.source o.a)) o.ty.size = none
  | .stl o => s.localStop .write 0x02 (laneAddresses s o (windowW + s.regs.source o.a)) o.ty.size = none
  | _ => True

/-- The register writes of a load whose lanes read the bytes `xs`: a scalar extended by its type, or each active lane of a vector, 64-bit
elements over a register pair (R183 to R185). -/
def loaded (s : State) (l : PendingLoad) (xs : List (Nat × List (BitVec 8))) : List RegWrite :=
  if l.scalar then [.scal l.d (extendScalar l.ty ((xs.map (fun p => p.2)).headD []))] else loadWrites s.tw l.d l.ty xs

/-- A change made for each line in turn whose page allows a line operation; the others are passed over, and so is every line where the gang of a
replay asks to read it (R189, R375). -/
def lineByLine (s : State) (lines : List Nat) (a : Access) (f : State → Nat → Leaf → Nat → State) : Res State :=
  lines.foldl (fun (r : Res State) va => match r with
    | .error e => .error e
    | .ok s => match s.linePage va a with
      | .error e => .error e
      | .ok (s1, none) => .ok s1
      | .ok (s1, some (leaf, pa)) => if s1.gang.replay = true ∧ a ≠ .write then .ok s1 else .ok (f s1 va leaf pa)) (.ok s)

/-- The op and fields of an atomic. -/
def atomicOf (i : Instr) : Option (Nat × Ops) :=
  match i with
  | .atom o => some (0x200, o)
  | .red o => some (0x201, o)
  | .satom o => some (0x202, o)
  | _ => none

/-- The lanes that a load with la = 0, a store or an atomic checks at its issue: the kind of access, the access bits of its record, the lanes with their
addresses, and the element size (R182, R273). -/
def checked (s : State) (i : Instr) : Option (Access × BitVec 8 × List (Nat × DWord) × Nat) :=
  match loadOf s i, storeOf s i, atomicOf i with
  | some (l, la), _, _ => if la = 0 then some (.read, 0x01, l.lanes, l.ty.size) else none
  | none, some (lanes, n, _, _), _ => some (.write, 0x02, lanes, n)
  | none, none, some (op, o) => some (.atomic, 0x08, s.atomicLanes op o, o.ty.size)
  | none, none, none => none

/-- What the park of the issuing team by an access of `va` leaves (R106, R273, R327, R359, R362): TCAUSE, TEPC, TVAL and UVAL, the record, and the team
held under its fault id, which it shares with a fault of the same page, context and cause that is held already. A load's team has gone on past
it, and its access is made again; a store or atomic stands at its program counter and issues again (R71, R188, R366). -/
def parkedBy (s : State) (load : Bool) (c : Cause) (va : DWord) (acc : BitVec 8) (t : State) : Prop :=
  let fn := s.fnOf (s.ctxOf s.cur)
  let page := some (s.ctxOf s.cur, va.toNat / 4096)
  let shared := s.hub.held.find? (fun x => x.fn = fn && x.cause = c && x.page = page)
  let id := match shared with | some x => x.id | none => (s.fnAt fn).nextId
  t.team.tcause = (if c = .pageNotPresent then 0x10 else 0x11) ∧ t.team.tepc = s.regs.pc ∧ t.team.tval = va ∧
  t.regs = { s.regs with pc := (if load then s.regs.pc + 8 else s.regs.pc), uval := va } ∧
  t.team.status = .parked fn id c (if load then .window else .reissue) ∧
  t.hub.records = (if shared.isSome then s.hub.records else s.hub.records ++ [⟨fn, id, acc, 0, c, va, s.regs.pc, s.gang.dispatch, s.gang.glin,
    s.gang.core, s.team.teamid, (s.dispatchOf s.cur).queue % 512⟩]) ∧
  t.hub.held = (if shared.isSome then
      s.hub.held.map (fun y => if y.fn = fn && y.id = id then { y with holds := y.holds ++ [.team s.cur] } else y)
    else s.hub.held ++ [⟨fn, id, c, page, [.team s.cur]⟩]) ∧
  (∀ u, u ≠ s.cur → t.teamAt u = s.teamAt u) ∧ t.mem = s.mem

end Sys2Proof.Claims

open Sys2Proof Sys2Proof.Machine Sys2Proof.Claims in
/-- A load with la = 0 whose lanes all pass the checks of R182 completes: its destination receives what its lanes read, in ascending order,
and no other register changes (R181 to R186). A load with la > 0 whose lanes are in range and aligned, and touch no register aperture,
issues and opens a window that holds the access; no register changes before the window closes (R68, R71, R182, R188). -/
def Obligations.LoadsWriteWhatTheirLanesRead : Prop :=
  (∀ (s s1 s2 : State) (i : Instr) (l : PendingLoad) (ts : List (Nat × Target)) (xs : List (Nat × List (BitVec 8))),
     loadOf s i = some (l, 0) → localStands s i → quiet s →
     s.targets s.cur .read 0x01 l.lanes l.ty.size = .ok (s1, ts) →
     s1.readLanes s.cur l.ty.size l.policy ts = .ok (s2, xs) → nextStands s2 →
     exec i s = .next (onward (wrote s2 (loaded s l xs) 0))) ∧
  (∀ (s : State) (i : Instr) (l : PendingLoad) (la : BitVec 4), loadOf s i = some (l, la) → la ≠ 0 → localStands s i → quiet s →
     (∀ p ∈ l.lanes, p.2.toNat < 2 ^ 57 ∧ p.2.toNat % l.ty.size = 0 ∧ ¬(windowBase + apertureV ≤ p.2.toNat)) → nextStands s →
     exec i s = .next ((after s s.regs).mapTeam s.cur (fun t => { t with windows := t.windows ++ [⟨s.regs.pc, la.toNat, .pending (.load l)⟩] })))

open Sys2Proof Sys2Proof.Machine Sys2Proof.Claims in
/-- A store whose lanes all pass the checks of R182 completes: each active lane's bytes are written at its own address, in ascending order of
lanes, and no register but the PC changes unless the store names the register aperture (R103, R181 to R187). The first lane in ascending
order that fails a check decides: an access of elements out of range ends the dispatch with 0x10, a misaligned one with 0x14, and no lane
is performed (R182). A load with la = 0, a store or an atomic whose first failing lane lies on an absent page, or writes a write-protected one, parks
its team with 0x10 or 0x11, TEPC at the instruction, TVAL and UVAL at the lane's address, and a record; RESUME lets the access be made again
(R188, R327, R359, R362, R366; O45 says what RESUME leaves). -/
def Obligations.StoresWriteTheirLanes : Prop :=
  (∀ (s s1 s2 : State) (i : Instr) (lanes : List (Nat × DWord)) (n : Nat) (data : Nat → List (BitVec 8)) (policy : BitVec 2)
     (ts : List (Nat × Target)), storeOf s i = some (lanes, n, data, policy) → localStands s i → quiet s →
     s.targets s.cur .write 0x02 lanes n = .ok (s1, ts) →
     s1.writeLanes s1.cur policy (ts.map (fun p => (p.1, p.2, data p.1))) = .ok s2 → nextStands s2 →
     exec i s = .next (onward s2)) ∧
  (∀ (s : State) (i : Instr) (lanes : List (Nat × DWord)) (n : Nat) (acc : BitVec 8) (before rest : List (Nat × DWord)) (p : Nat × DWord),
     quiet s → (∀ o, i ≠ .ldl o) → (∀ o, i ≠ .stl o) →
     ((∃ l la, loadOf s i = some (l, la) ∧ lanes = l.lanes ∧ n = l.ty.size ∧ acc = 0x01) ∨
       (∃ data policy, storeOf s i = some (lanes, n, data, policy) ∧ acc = 0x02)) →
     lanes = before ++ p :: rest → (∀ q ∈ before, q.2.toNat < 2 ^ 57 ∧ q.2.toNat % n = 0) →
     (2 ^ 57 ≤ p.2.toNat → exec i s = .next (ends s .pageNotPresent p.2 acc p.2)) ∧
     (p.2.toNat < 2 ^ 57 → p.2.toNat % n ≠ 0 → exec i s = .next (ends s .misalignment p.2 acc p.2))) ∧
  (∀ (s s1 : State) (i : Instr) (a : Access) (acc : BitVec 8) (lanes : List (Nat × DWord)) (n : Nat) (c : Cause) (va : DWord),
     checked s i = some (a, acc, lanes, n) → localStands s i → quiet s → (c = .pageNotPresent ∨ c = .writeProtection) →
     s.targets s.cur a acc lanes n = .error (.trap c va acc true, s1) → nextStands s1 →
     ∃ t, exec i s = .next t ∧ parkedBy s1 (decide (a = .read)) c va acc t) ∧
  (∀ (s s1 : State) (a : Access) (acc : BitVec 8) (ea : DWord) (n : Nat), ea.toNat < windowBase →
     let walk := s.leafFor ⟨some (s.coreOf s.cur), some s.team.gang⟩ (s.ctxOf s.cur) ea.toNat (decide (a = .write ∨ a = .atomic))
     (walk = .ok (s1, none) → s.target s.cur a acc ea.toNat n = .error (.trap .pageNotPresent ea acc true, s1)) ∧
     (∀ l ts, walk = .ok (s1, some (l, ts)) → l.writable = false → (a = .write ∨ a = .atomic) →
       s.target s.cur a acc ea.toNat n = .error (.trap .writeProtection ea acc true, s1)))

open Sys2Proof Sys2Proof.Machine Sys2Proof.Claims in
/-- A scalar store into the gang's scratchpad and a scalar load from it (R102, R170, R185): STS changes exactly the bytes from its offset on,
to the low bytes of s(d), and every other byte of every scratchpad, of DRAM and of host memory reads as before; LDS with la = 0 writes to s(d)
the bytes that stand there, extended by its type, and changes no memory. -/
def Obligations.ScratchpadScalarAccessIsExact : Prop :=
  ∀ (s : State) (o : Ops), quiet s → nextStands s →
    let ea := s.regs.source o.a + (s.regs.source o.b <<< (o.var.toNat / 4))
    let off := ea.toNat - windowBase
    let n := o.ty.size
    windowBase ≤ ea.toNat → ea.toNat < 2 ^ 57 → ea.toNat % n = 0 → off + n ≤ s.gang.scratch →
    (∃ t, exec (.sts o) s = .next t ∧ t.regs = { s.regs with pc := s.regs.pc + 8 } ∧ t.mem = s.mem ∧
      (∀ a, (t.gangAt s.team.gang).scratchpad.byte a =
        if off ≤ a ∧ a < off + n then (s.sreg o.d.num.toNat).extractLsb' (8 * (a - off)) 8 else s.gang.scratchpad.byte a) ∧
      (∀ g, g ≠ s.team.gang → t.gangAt g = s.gangAt g) ∧ (∀ u, u ≠ s.cur → t.teamAt u = s.teamAt u)) ∧
    (o.la = 0 → s.gang.poisoned off n = false →
      exec (.lds o) s = .next (after s (s.regs.setS o.d.num.toNat (extendScalar o.ty (s.gang.scratchpad.read off n))) (scal o.d.num.toNat)))

open Sys2Proof Sys2Proof.Machine Sys2Proof.Claims in
/-- Memory in home order: bytes written at a physical address are the bytes read there, and every other byte reads as before, whatever copies
of the line the slices hold (R20, R161, R173). -/
def Obligations.HomeWriteIsReadBack : Prop :=
  ∀ (m : Mem) (pa a : Nat) (bs : List (BitVec 8)),
    (m.setBytes pa bs).byte a = if pa ≤ a ∧ a < pa + bs.length then bs.getD (a - pa) 0 else m.byte a

open Sys2Proof Sys2Proof.Machine Sys2Proof.Claims in
/-- PF and DISC act on each distinct line that the active lanes name, in ascending order of lanes, pass over a line whose page refuses them,
and complete whatever the pages hold: PF brings the line into its slice, with ownership for a write, and unless the policy is no-L1 fills it into
the L1, where a line that the L1 did not hold is counted as a fill (R354); DISC lets the core drop any of its dirty words of the line and keep the others, as it chooses (a free value, log 2) (R189, R190). FLUSH and INV of one line:
where the dirty words of the core's L1 copy can be sent home they are, FLUSH leaves the copy clean and FLUSH.all also sends home what the
slices hold dirty, INV drops the copy; a line that the L1 does not hold is left alone, and a page that refuses line operations is passed
over; the gang of a replay sends no line (R189, R190, R218, R375; log 69). An address in the local window is translated like any other (log 96). -/
def Obligations.LineOperationsActOnEachLine : Prop :=
  (∀ (s t u : State) (o : Ops),
     let lines := lineAddresses (laneAddresses s o (s.regs.source o.a))
     (lineByLine s lines .read (fun s va leaf pa =>
         let core := s.coreOf s.cur
         (if o.mode ≠ 3 ∧ (s.coreAt core).line (pa / 128) = none then s.countFill s.team.gang else s).prefetchLine core (s.ctxOf s.cur) va pa
           (s.pathOf (some core) (s.ctxOf s.cur) leaf pa o.mode) (o.var.getLsbD 0) (o.mode ≠ 3)) = .ok t →
       nextStands t → exec (.pf o) s = .next (onward t)) ∧
     (quiet s → lineByLine s lines .write (fun s _ _ pa => s.discard pa) = .ok u → nextStands u → exec (.disc o) s = .next (onward u))) ∧
  (∀ (s : State) (o : Ops) (va : Nat), quiet s → lineAddresses (laneAddresses s o (s.regs.source o.a)) = [va] →
     (∀ s1, s.linePage va .read = .ok (s1, none) → nextStands s1 →
       exec (.flush o) s = .next (onward s1) ∧ exec (.inv o) s = .next (onward s1)) ∧
     (∀ s1 leaf pa, s.linePage va .read = .ok (s1, some (leaf, pa)) → s1.gang.replay = true → nextStands s1 →
       exec (.flush o) s = .next (onward s1) ∧ exec (.inv o) s = .next (onward s1)) ∧
     (∀ s1 leaf pa, s.linePage va .read = .ok (s1, some (leaf, pa)) → s1.gang.replay = false →
       (s1.coreAt (s1.coreOf s1.cur)).line (pa / 128) = none → nextStands s1 →
       (o.var.getLsbD 0 = false → exec (.flush o) s = .next (onward s1)) ∧
       (o.var.getLsbD 0 = true → exec (.flush o) s = .next (onward (s1.mapMem (fun m => m.cleanLine (pa / 128))))) ∧
       exec (.inv o) s = .next (onward s1)) ∧
     (∀ s1 s2 leaf pa l, s.linePage va .read = .ok (s1, some (leaf, pa)) → s1.gang.replay = false →
       (s1.coreAt (s1.coreOf s1.cur)).line (pa / 128) = some l →
       s1.writeBackLine (s1.coreOf s1.cur) l 0x02 = .ok s2 → nextStands s2 →
       (o.var.getLsbD 0 = false → exec (.flush o) s = .next (onward s2)) ∧
       (o.var.getLsbD 0 = true → exec (.flush o) s = .next (onward (s2.mapMem (fun m => m.cleanLine (pa / 128))))) ∧
       exec (.inv o) s = .next (onward (s2.mapCore (s1.coreOf s1.cur) (fun c => c.dropLine l.line)))))

/-! ### Atomics, fences and waits on words -/

namespace Sys2Proof.Claims
open Sys2Proof.Machine

/-- The groups of an atomic performed one after another, with the old values that their lanes receive. -/
def performAll (s : State) (op : Nat) (o : Ops) (gs : List AtomicGroup) (olds : List (Nat × DWord)) :
    Res (State × List (Nat × DWord)) :=
  match gs with
  | [] => .ok (s, olds)
  | g :: rest =>
    match s.performGroup op o g with
    | .error e => .error e
    | .ok (s1, more) => performAll s1 op o rest (olds ++ more)

/-- A group that the device performs by itself: in scratchpad, at the hub, in DRAM, or on a host line by CXL.cache (R193, R330, R387). -/
def performedHere (g : AtomicGroup) : Prop :=
  match g.place with
  | .scratch _ _ => True
  | .hub _ => True
  | .home pa cached => rangeOf pa ≠ .host ∨ cached = true

/-- The new word of an atomic operation of the code, on the old word and the operand of `w` bits, and for .cas the second operand (R192). -/
def newWord (code : Nat) (signed : Bool) (old x x2 : DWord) (w : Nat) : DWord :=
  let v (y : DWord) : Int := if signed then (y.setWidth w).toInt else (y.setWidth w).toNat
  match code with
  | 0 => ((old + x).setWidth w).setWidth 64
  | 1 => if v x < v old then x else old
  | 2 => if v old < v x then x else old
  | 3 => old &&& x
  | 4 => old ||| x
  | 5 => old ^^^ x
  | 6 => x
  | _ => if old = x then x2 else old

/-- A word satisfies the condition of a wait: .eq, .ne or .ge, as the type compares (R200). -/
def waitHolds (cond : Nat) (o : Ops) (word value : Nat) : Prop :=
  let b := 8 * o.ty.size
  match cond with
  | 0 => word % 2 ^ b = value % 2 ^ b
  | 1 => word % 2 ^ b ≠ value % 2 ^ b
  | _ => intOf o.ty.isSigned b value ≤ intOf o.ty.isSigned b word

/-- The fields of a FENCE by kind and scope code (R195): kinds ACQ, REL, AR, SL, SC, and scopes team, gang, core, die, dev, sys. -/
def fenceOps (kind : BitVec 4) (scope : ElemType) : Ops := ⟨.reg 0, .reg 0, .reg 0, kind, scope, 0, none, 0⟩

end Sys2Proof.Claims

open Sys2Proof Sys2Proof.Machine Sys2Proof.Claims in
/-- ATOM, RED and SATOM: where every lane passes its checks, the core's own dirty copies are written back, lines of home 1 pinned, and every group is performed by the
device, the atomic completes; its groups are performed in order, ATOM and SATOM write the old values with la = 0, RED writes no register,
and the rollback interval is sealed (R191 to R194, R372). The model's choices: the order of groups away from host memory (log 3), and an
atomic's faults at its issue (log 28). -/
def Obligations.AtomicPerformsItsGroups : Prop :=
  ∀ (s s1 s2 t : State) (i : Instr) (op : Nat) (o : Ops) (ts : List (Nat × Target)) (olds : List (Nat × DWord)),
    atomicOf i = some (op, o) → quiet s → o.la = 0 →
    s.targets s.cur .atomic 0x08 (s.atomicLanes op o) o.ty.size = .ok (s1, ts) →
    s1.atomicEvict (s1.atomicGroups (s.atomicLanes op o) ts) o.ty.size = .ok s2 →
    (∀ g ∈ s1.atomicGroups (s.atomicLanes op o) ts, performedHere g) →
    performAll ((s2.atomicPin ts).sealInterval s2.team.gang) op o (s1.atomicGroups (s.atomicLanes op o) ts) [] = .ok (t, olds) →
    nextStands t → exec i s = .next (onward (wrote t (atomicWrites t.tw op o olds) 0))

open Sys2Proof Sys2Proof.Machine Sys2Proof.Claims in
/-- SATOM on a word of the gang's scratchpad, for each of its eight operations: the word takes the operation's new value, s(d) the old word
(sign-extended for a signed type, log 33), and no other byte of the scratchpad, no byte of DRAM or host memory and no other register
changes (R191, R192, R193). -/
def Obligations.ScratchpadScalarAtomicIsExact : Prop :=
  ∀ (s : State) (o : Ops), quiet s → nextStands s → o.la = 0 →
    let ea := s.regs.source o.a + (s.regs.source o.b <<< (if o.var.getLsbD 3 then (if o.ty.size = 8 then 3 else 2) else 0))
    let off := ea.toNat - windowBase
    let n := o.ty.size
    let w (x : DWord) : DWord := if n = 4 then (x.setWidth 32).setWidth 64 else x
    let old := BitVec.ofNat 64 (leNat (s.gang.scratchpad.read off n))
    let new := newWord (o.var.toNat % 8) o.ty.isSigned old (w (s.sreg o.d.num.toNat)) (w (s.sreg (o.d.num.toNat + 1))) (8 * n)
    (n = 4 ∨ n = 8) → windowBase ≤ ea.toNat → ea.toNat < 2 ^ 57 → ea.toNat % n = 0 → off + n ≤ s.gang.scratch →
    s.gang.poisoned off n = false →
    ∃ t, exec (.satom o) s = .next t ∧ t.mem = s.mem ∧
      t.regs = { s.regs.setS o.d.num.toNat (if n = 4 ∧ o.ty.isSigned = true then (old.setWidth 32).signExtend 64 else old) with
        pc := s.regs.pc + 8 } ∧
      (∀ a, (t.gangAt s.team.gang).scratchpad.byte a =
        if off ≤ a ∧ a < off + n then new.extractLsb' (8 * (a - off)) 8 else s.gang.scratchpad.byte a) ∧
      (t.gangAt s.team.gang).isSealed = true

open Sys2Proof Sys2Proof.Machine Sys2Proof.Claims in
/-- FENCE: at team, gang or core scope it moves no data; at die scope and wider a releasing fence writes back the dirty words of
its context and an acquiring one invalidates its clean words. A releasing fence of any scope completes once no write of the team is on its way to
an apply window (and for SL and SC of gpu scope or wider no fire of a vector it filled is outstanding), and stalls until then. The fences of a
replay do nothing (R195 to R198, R204, R206, R213, R375; log 69). -/
def Obligations.FenceWritesBackAndInvalidates : Prop :=
  ∀ (s : State) (kind : BitVec 4) (scope : ElemType), kind.toNat < 5 → quiet s →
    let fence := exec (.fence (fenceOps kind scope)) s
    let acquired (t : State) : State := if kind = 0 ∨ kind = 2 ∨ kind = 4 then t.acquire (t.coreOf s.cur) (t.ctxOf s.cur) else t
    let waits (t : State) : Bool :=
      decide (kind ≠ 0) && (t.writesOf (.team s.cur) || (decide (4 ≤ scope.code.toNat ∧ 3 ≤ kind.toNat) && t.fillsPending s.cur))
    (s.gang.replay = true → nextStands s → fence = .next (after s s.regs)) ∧
    (s.gang.replay = false →
      (scope.code.toNat < 3 → waits s = false → nextStands s → fence = .next (after s s.regs)) ∧
      (scope.code.toNat < 3 → waits s = true → fence = .next s) ∧
      (3 ≤ scope.code.toNat → kind = 0 → nextStands s → fence = .next (onward (s.acquire (s.coreOf s.cur) (s.ctxOf s.cur)))) ∧
      (∀ t, 3 ≤ scope.code.toNat → kind ≠ 0 → s.release s.cur = (t, none) → waits t = false → nextStands t →
        fence = .next (onward (acquired t))) ∧
      (∀ t, 3 ≤ scope.code.toNat → kind ≠ 0 → s.release s.cur = (t, none) → waits t = true → fence = .next t))

/-! ### Barriers, named queues, continuations and queue registers -/

namespace Sys2Proof.Claims
open Sys2Proof.Machine

/-- The condition of R340: every expected arrival has come and no byte is outstanding. -/
def phaseDone (x : Barrier) : Prop := x.expected ≤ x.arrivals ∧ x.balance = 0

/-- A barrier after an arrival of a team (R339, R346). -/
def arrivedAt (x : Barrier) (b teamid : Nat) (sync : Bool) : Barrier :=
  { x with
    arrivals := min 65535 (x.arrivals + 1)
    arrived := if b = 0 then x.arrived ||| (1#16 <<< teamid) else x.arrived
    bySync := x.bySync && sync }

/-- A barrier of a gang replaced by the issuing team, without the check of its phase condition, with the note of the cycle and of the team's slot
by which the changes of one cycle are ordered (R341). -/
def withBarrier (s : State) (g b : Nat) (x : Barrier) (stamp : Nat × Nat) : State :=
  s.mapGang g (fun k => { k with barriers := k.barriers.set b { x with stamp := stamp } })

/-- The token that an ended BARSYNC of the issuing team's stream holds for its address and the barrier (R348). -/
def heldHere (s : State) (b : Nat) : Option HeldSync :=
  s.team.held.find? (fun x => decide (x.inHandler = s.team.h) && decide (x.barrier = b) && decide (x.pc = s.regs.pc))

/-- The word of an instruction. -/
def wordOf (i : Instr) : DWord := (encode i).getD 0

/-- The result word of a wait (R347): done, stale, phase. -/
def waitWord (done stale : Bool) (phase : BitVec 16) : DWord :=
  (0 : BitVec 46) ++ ((if done then 1 else 0 : BitVec 1) ++ ((if stale then 1 else 0 : BitVec 1) ++ phase))

/-- The team made to wait (R43, R50). -/
def blocks (s : State) (k : WaitKind) : State :=
  s.setTeam { s.team with status := .waiting ⟨k, 0, false, s.cycles⟩, stuck := none }

/-- The doubleword that stands at the target of an atomic, in scratchpad or in memory (R193). -/
def counterAt (s : State) (t : Target) : Option DWord :=
  match s.atomicPlace t with
  | some (.scratch g off) => some (BitVec.ofNat 64 (leNat ((s.gangAt g).scratchpad.read off 8)))
  | some (.home pa _) => some (s.mem.dword pa)
  | _ => none

/-- A deferred instruction that has made its effect: its result is written to d later, before an instruction that names d issues (R361). -/
def deferring (s : State) (d : BitVec 8) (x : DWord) : State :=
  s.setTeam { s.team with deferred := s.team.deferred ++ [⟨s.regs.pc, d.toNat, .value x⟩] }

/-- A new binding of a queue register, with everything else as before. -/
def bound (s : State) (n : Nat) (b : Binding) : State :=
  s.setTeam { s.team with regs := { s.regs with q := s.regs.q.set n b } }

end Sys2Proof.Claims

open Sys2Proof Sys2Proof.Machine Sys2Proof.Claims in
/-- BARINIT of b1 to b15 with a count of 1 to 65,535 completes and changes no register: on a barrier that is not initialised it sets every
field as R345 says; on an initialised one it completes the current phase and then sets the count. On b0, or with a count out of range, it
raises 0x03 (R345). BARARR and BARTX.arr arrive once and give the token of the phase they arrived in, BARTX and BARTX.arr add their bytes
to the balance, each in one change; where the change meets the phase condition the phase completes in it, else nothing else of the
barrier changes. On a barrier that is not initialised each raises 0x03. A change that must precede one made in the same cycle is not made in
that cycle: nothing happens, and the team stalls (log 79); so it does before an arrival while a write of the team is on its way to an apply window
(R206, R212, R340, R341, R346). -/
def Obligations.BarriersCountArrivalsAndBytes : Prop :=
  (∀ (s : State) (o : Ops),
     let b := o.d.num.toNat
     let n := (s.regs.source o.a).toNat
     let g := s.team.gang
     let stamp := (s.cycles, s.team.slot)
     (b ≠ 0 → 1 ≤ n → n ≤ 65535 → s.tooLate g b = true → exec (.barinit o) s = .next s) ∧
     (b ≠ 0 → 1 ≤ n → n ≤ 65535 → s.tooLate g b = false → (s.barrier g b).init = false → nextStands s →
       exec (.barinit o) s = .next (onward ((withBarrier s g b ⟨true, g, n, 0, 0, 0, 0, true, stamp⟩ stamp).mapGang g
         (fun x => { x with badSync := x.badSync.erase (.barrier b) })))) ∧
     (∀ t, b ≠ 0 → 1 ≤ n → n ≤ 65535 → s.tooLate g b = false → (s.barrier g b).init = true →
       t = s.completePhase g b → nextStands t →
       exec (.barinit o) s = .next (onward (withBarrier t g b { t.barrier g b with expected := n, arrivals := 0, balance := 0 } stamp))) ∧
     (b = 0 ∨ n = 0 ∨ 65535 < n → exec (.barinit o) s = .next (ends s .illegalRegister 0 0 0))) ∧
  (∀ (s : State) (o : Ops), quiet s → nextStands s →
     let b := o.a.num.toNat
     let g := s.team.gang
     let x := s.barrier g b
     let bytes : Barrier := { x with balance := x.balance + s.regs.source o.b }
     let stamp := (s.cycles, s.team.slot)
     let changed (y : Barrier) (r : State → State) (out : Out) : Prop :=
       (¬phaseDone y → out = .next (onward (r (withBarrier s g b y stamp)))) ∧
       (∀ t, phaseDone y → t = r ((withBarrier s g b y stamp).completePhase g b) → nextStands t → out = .next (onward t))
     let token (t : State) : State := t.setS o.d.num.toNat (x.phase.setWidth 64)
     (x.init = true → s.tooLate g b = true → exec (.bararr o) s = .next s ∧ exec (.bartx o) s = .next s) ∧
     let onItsWay := s.writesOf (.team s.cur)
     (x.init = true → s.tooLate g b = false →
       (onItsWay = false → changed (arrivedAt x b s.team.teamid false) token (exec (.bararr o) s)) ∧
       (onItsWay = true → exec (.bararr o) s = .next s) ∧
       (o.var.getLsbD 0 = false → changed bytes id (exec (.bartx o) s)) ∧
       (o.var.getLsbD 0 = true → onItsWay = false → changed (arrivedAt bytes b s.team.teamid false) token (exec (.bartx o) s)) ∧
       (o.var.getLsbD 0 = true → onItsWay = true → exec (.bartx o) s = .next s)) ∧
     (x.init = false → exec (.bararr o) s = .next (ends s .illegalRegister 0 0 0) ∧
       exec (.bartx o) s = .next (ends s .illegalRegister 0 0 0)))

open Sys2Proof Sys2Proof.Machine Sys2Proof.Claims in
/-- The waits on a barrier: a token of a completed phase lets BARWAIT and BARTRYWAIT return at once with done, and stale where two or more
phases have completed; a token of the current phase makes them wait. BARTRYWAIT on a barrier that is not initialised returns uninit, and
a BARWAIT or BARSYNC whose tag check fails raises 0x20 (R47, R202, R343, R347). BARSYNC arrives by one change and waits on the token of
its phase: where its arrival completes the phase it returns at once with done and the new phase, else the team waits. One that was ended
after its arrival, reissued at the same address on the same barrier in the same stream, does not arrive again: it waits on the held token,
and the hold is cleared (R340, R346 to R348). Its arrival stalls in the cycle of a change that comes after it (log 79) and while a write of the team
is on its way to an apply window (R212). A BARWAIT or BARSYNC with a variant whose tag check passes raises 0x01 with its word (R74; log 5). -/
def Obligations.BarrierWaitsReturnOrBlock : Prop :=
  (∀ (s : State) (o : Ops), quiet s →
     let b := o.a.num.toNat
     let g := s.team.gang
     let x := s.barrier g b
     let d := o.d.num.toNat
     let t : BitVec 16 := (s.regs.source o.b).setWidth 16
     let age := (x.phase - t).toNat
     let hint := some (256 * 16 ^ (o.var.toNat / 4))
     (x.init = true → 1 ≤ age → nextStands s →
       (o.mode = 0 → x.gang = g → o.var = 0 →
         exec (.barwait o) s = .next (after s (s.regs.setS d (waitWord true (2 ≤ age) x.phase)) (scal d))) ∧
       exec (.bartrywait o) s = .next (after s (s.regs.setS d (waitWord true (2 ≤ age) x.phase)) (scal d))) ∧
     (x.init = true → age = 0 →
       (o.mode = 0 → x.gang = g → o.var = 0 → exec (.barwait o) s = .next (blocks s (.barrier b t false none d))) ∧
       exec (.bartrywait o) s = .next (blocks s (.barrier b t false hint d))) ∧
     (x.init = false → nextStands s → exec (.bartrywait o) s = .next (after s (s.regs.setS d 0x40000) (scal d))) ∧
     (x.init = true → o.mode = 0 → x.gang = g → o.var ≠ 0 →
       exec (.barwait o) s = .next (ends s .illegalInstruction (wordOf (.barwait o)) 0 (wordOf (.barwait o))) ∧
       exec (.barsync o) s = .next (ends s .illegalInstruction (wordOf (.barsync o)) 0 (wordOf (.barsync o)))) ∧
     (x.init = false ∨ o.mode ≠ 0 → exec (.barwait o) s = .next (ends s .illegalWait 0 0 0) ∧
       exec (.barsync o) s = .next (ends s .illegalWait 0 0 0))) ∧
  (∀ (s : State) (o : Ops), quiet s → o.mode = 0 → o.var = 0 →
     let b := o.a.num.toNat
     let g := s.team.gang
     let x := s.barrier g b
     let d := o.d.num.toNat
     let y := arrivedAt x b s.team.teamid true
     let stamp := (s.cycles, s.team.slot)
     x.init = true → x.gang = g →
     (heldHere s b = none → s.tooLate g b = true ∨ s.writesOf (.team s.cur) = true → exec (.barsync o) s = .next s) ∧
     (heldHere s b = none → s.tooLate g b = false → s.writesOf (.team s.cur) = false → ¬phaseDone y →
       exec (.barsync o) s = .next (blocks (withBarrier s g b y stamp) (.barrier b x.phase true none d))) ∧
     (∀ t, heldHere s b = none → s.tooLate g b = false → s.writesOf (.team s.cur) = false → phaseDone y →
       t = (withBarrier s g b y stamp).completePhase g b →
       (t.dispatchAt (t.gangAt g).dispatch).rollback = false → (t.barrier g b).phase = x.phase + 1 → t.team = s.team → nextStands s →
       exec (.barsync o) s = .next (after t (t.regs.setS d (waitWord true false (x.phase + 1))) (scal d))) ∧
     (∀ h, heldHere s b = some h → h.token = x.phase →
       exec (.barsync o) s = .next (blocks (s.setTeam { s.team with held := s.team.held.filter (fun x => x.inHandler ≠ s.team.h) })
         (.barrier b h.token true none d))))

open Sys2Proof Sys2Proof.Machine Sys2Proof.Claims in
/-- complete(b) of R340 releases every wait of the gang on the phase that completes: each such team is ready at its next address with the result
word done in its destination, the barrier has no arrivals and its phase has advanced by one modulo 2^16. -/
def Obligations.PhaseCompletionReleasesItsWaiters : Prop :=
  ∀ (s : State) (g b u i d : Nat) (sync : Bool) (hint : Option Nat) (w : Wait),
    let t := s.completePhase g b
    let phase := (s.barrier g b).phase + 1
    i < (s.gangAt g).nteams → u = 16 * g + i →
    (∀ v ∈ s.teamsOf g, ((s.teamAt v).regs.pc + 8).toNat ≠ windowBase) →
    (s.teamAt u).status = .waiting w → w.kind = .barrier b ((s.barrier g b).phase) sync hint d →
    (t.barrier g b).arrivals = 0 ∧ (t.barrier g b).phase = phase ∧ (t.barrier g b).balance = (s.barrier g b).balance ∧
      (t.teamAt u).status = .ready ∧ (t.teamAt u).regs.pc = (s.teamAt u).regs.pc + 8 ∧
      (t.teamAt u).regs.sreg d = (if d = 0 then 0 else waitWord true false phase)

open Sys2Proof Sys2Proof.Machine Sys2Proof.Claims in
/-- The named queues: CINIT empties a queue over its slots; PUSHC puts the low 32 bits of s(a) behind the handles of a queue with room and waits
on a full one; POPC gives the oldest handle and waits on an empty one; TRYPOPC gives it with bit 32 set, or 0. A wait whose tag fails
raises 0x20, and one with a variant whose tag passes raises 0x01 with its word (R74; log 5); no team is blocked on the queue in these cases, else the
blocked are served in turn. In a cycle in which a TRYPOPC has found the queue empty a PUSHC stalls, so that the pop comes first (log 79), and so it does
while a write of the team is on its way to an apply window (R212, R261 to R264). -/
def Obligations.NamedQueuesKeepTheirOrder : Prop :=
  ∀ (s : State) (o : Ops), quiet s → nextStands s →
    let g := s.team.gang
    let cd := o.d.num.toNat
    let ca := o.a.num.toNat
    let idle (c : Nat) : Prop := s.firstBlocked g c true = none ∧ s.firstBlocked g c false = none
    let named (t : State) (c : Nat) (q : NamedQueue) : State := t.mapGang g (fun x => { x with queues := x.queues.set c q })
    let slot (q : NamedQueue) (i : Nat) : Nat := q.offset + 4 * ((q.head + i) % q.slots)
    (let off := (s.regs.source o.a).toNat
     let n := (s.regs.source o.b).toNat
     idle cd → 1 ≤ n → n ≤ 64 → off % 4 = 0 → off + 4 * n ≤ s.gang.scratch →
     exec (.cinit o) s = .next (onward ((named s cd ⟨true, g, off, n, 0, 0, 0⟩).mapGang g
       (fun x => { x with badSync := x.badSync.erase (.queue cd) })))) ∧
    (let q := s.namedQueue g cd
     let late := q.tried = s.cycles + 1 ∨ s.writesOf (.team s.cur) = true
     s.queueTag o.mode cd = true → o.var = 0 → (late → exec (.pushc o) s = .next s) ∧
      (idle cd → ¬late → q.count < q.slots →
      exec (.pushc o) s = .next (onward (named (s.mapGang g (fun x => x.store (slot q q.count) (leBytes 4 ((s.regs.source o.a).setWidth 32).toNat)))
        cd { q with count := q.count + 1 }))) ∧
      (¬late → q.slots ≤ q.count → exec (.pushc o) s = .next (blocks s (.push cd ((s.regs.source o.a).setWidth 32))))) ∧
    (let q := s.namedQueue g ca
     let head : DWord := BitVec.ofNat 64 (leNat (s.gang.scratchpad.read (q.offset + 4 * q.head) 4))
     let popped : State := named s ca { q with head := (q.head + 1) % q.slots, count := q.count - 1 }
     (s.queueTag o.mode ca = true → o.var = 0 → idle ca → 0 < q.count → s.gang.poisoned (q.offset + 4 * q.head) 4 = false →
      exec (.popc o) s = .next (onward (popped.setS cd head))) ∧
     (s.queueTag o.mode ca = true → o.var = 0 → q.count = 0 → exec (.popc o) s = .next (blocks s (.pop ca cd))) ∧
     (q.init = true → idle ca → 0 < q.count → s.gang.poisoned (q.offset + 4 * q.head) 4 = false →
      exec (.trypopc o) s = .next (onward (popped.setS cd (0x100000000 + head)))) ∧
     (q.init = false → exec (.trypopc o) s = .next (after s (s.regs.setS cd 0) (scal cd))) ∧
     (q.init = true → q.count = 0 →
      exec (.trypopc o) s = .next (onward ((named s ca { q with tried := s.cycles + 1 }).setS cd 0)))) ∧
    (o.var ≠ 0 →
      (s.queueTag o.mode cd = true → exec (.pushc o) s = .next (ends s .illegalInstruction (wordOf (.pushc o)) 0 (wordOf (.pushc o)))) ∧
      (s.queueTag o.mode ca = true → exec (.popc o) s = .next (ends s .illegalInstruction (wordOf (.popc o)) 0 (wordOf (.popc o))))) ∧
    (s.queueTag o.mode cd = false → exec (.pushc o) s = .next (ends s .illegalWait 0 0 0)) ∧
    (s.queueTag o.mode ca = false → exec (.popc o) s = .next (ends s .illegalWait 0 0 0))

open Sys2Proof Sys2Proof.Machine Sys2Proof.Claims in
/-- SPAWN, acting as if FENCE.REL.dev preceded it, pushes the record at its VA to the continuation queue of its dispatch's host queue, of at
most 4,096 records, and its result is 0; it is 1 where the queue is full and 2 where the record is malformed, and then nothing is pushed.
The instruction is deferred and seals the interval (R270, R271, R361, R372). JOIN on a counter word in the gang's reach: the word is
decremented by an atomic add of −1 after the fence and the read of the record; a party that is not the last has result 0, and the last,
whose old value was 1, pushes the record and has 1, or 2 where the queue is full, or 3 where the record is malformed (R349). FETCHW of a
persistent gang, acting as if FENCE.REL.sys preceded it, clears the flag word of its mailbox, reports the index last withdrawn from the
target as finished, queues the request and has result 0; it is 1 where the target cannot be fetched from and 2 where a request is
outstanding for the mailbox. A gang that is not persistent raises 0x01 (R272, R372). The model's choices: SPAWN and JOIN read their record
past the L1 (log 29), and a continuation is counted on the dispatch of the packet itself (log 43). -/
def Obligations.ContinuationsAndMailboxes : Prop :=
  (∀ (s s1 s2 : State) (o : Ops) (bs : List (BitVec 8)),
     (s.regs.source o.a).toNat % 32 = 0 → s.fence 1 4 = .ok s1 → s1.readRecord (s.regs.source o.a) = .ok (s2, bs) →
     let t := s2.sealInterval s2.team.gang
     let x := t.dispatchAt t.gang.dispatch
     let r : ContRecord := ⟨recordWord bs 0, recordWord bs 1, recordWord bs 2, recordWord bs 3, x.packet, t.rootOf t.gang.dispatch⟩
     let wellFormed := recordShape r.code r.shape ≠ none
     let room := (t.queueAt x.queue).conts.length < 4096
     nextStands t →
     (wellFormed → room → exec (.spawn o) s = .next (onward (deferring
       ((t.mapQueue x.queue (fun q => { q with conts := q.conts ++ [r] })).mapDispatch (t.rootOf t.gang.dispatch)
         (fun y => { y with conts := y.conts + 1 })) o.d.num 0))) ∧
     (wellFormed → ¬room → exec (.spawn o) s = .next (onward (deferring t o.d.num 1))) ∧
     (¬wellFormed → exec (.spawn o) s = .next (onward (deferring t o.d.num 2)))) ∧
  (∀ (s s1 s2 s3 s4 s5 t : State) (o : Ops) (bs : List (BitVec 8)) (tgt0 tgt : Nat × Target) (old : DWord),
     let c := s.regs.source o.a
     let r := s.regs.source o.b
     let op : Ops := { o with ty := .n64 }
     quiet s → c.toNat % 8 = 0 → r.toNat % 32 = 0 → s.fence 1 4 = .ok s1 →
     s1.targets s1.cur .atomic 0x08 [(0, c)] 8 = .ok (s2, [tgt0]) → s2.readRecord r = .ok (s3, bs) →
     s3.targets s3.cur .atomic 0x08 [(0, c)] 8 = .ok (s4, [tgt]) →
     s4.atomicEvict (s4.atomicGroups [(0, c)] [tgt]) 8 = .ok s5 → (∀ g ∈ s4.atomicGroups [(0, c)] [tgt], performedHere g) →
     performAll ((s5.atomicPin [tgt]).sealInterval s5.team.gang) 0x252 op (s4.atomicGroups [(0, c)] [tgt]) [] = .ok (t, [(0, old)]) → nextStands t →
     (old ≠ 1 → exec (.join o) s = .next (onward (deferring t o.d.num 0))) ∧
     (old = 1 → ∀ t', t.pushContinuation bs = (t', .done) → nextStands t' → exec (.join o) s = .next (onward (deferring t' o.d.num 1))) ∧
     (old = 1 → ∀ t', t.pushContinuation bs = (t', .full) → nextStands t' → exec (.join o) s = .next (onward (deferring t' o.d.num 2))) ∧
     (old = 1 → ∀ t', t.pushContinuation bs = (t', .malformed) → nextStands t' → exec (.join o) s = .next (onward (deferring t' o.d.num 3))) ∧
     (∀ w, o.var = 0 → counterAt ((s5.atomicPin [tgt]).sealInterval s5.team.gang) tgt.2 = some w →
       old = w ∧ counterAt t tgt.2 = some (w - 1))) ∧
  (∀ (s : State) (o : Ops),
     let m := (s.regs.source o.a).toNat
     let target := (s.regs.source o.b).toNat
     let g := s.team.gang
     (s.gang.persistent = true → m % 16 = 0 → m + 16 ≤ s.gang.scratch → nextStands s →
       ((s.dispatchAt target).fetchableBy (s.ctxOf s.cur) = false →
         exec (.fetchw o) s = .next (onward (deferring (s.sealInterval g) o.d.num 1))) ∧
       ((s.dispatchAt target).fetchableBy (s.ctxOf s.cur) = true → s.gang.fetches.any (fun f => f.mailbox = m) = true →
         exec (.fetchw o) s = .next (onward (deferring (s.sealInterval g) o.d.num 2)))) ∧
     (∀ s1 t, s.gang.persistent = true → m % 16 = 0 → m + 16 ≤ s.gang.scratch →
       (s.dispatchAt target).fetchableBy (s.ctxOf s.cur) = true → s.gang.fetches.any (fun f => f.mailbox = m) = false →
       s.fence 1 5 = .ok s1 →
       t = ((((s1.mapGang g (fun x => x.store (m + 12) [0, 0, 0, 0])).reportIndex g target).mapGang g
         (fun x => { x with fetches := x.fetches ++ [⟨m, target⟩] })).sealInterval g) → nextStands t →
       exec (.fetchw o) s = .next (onward (deferring t o.d.num 0))) ∧
     (s.gang.persistent = false → exec (.fetchw o) s = .next (ends s .illegalInstruction 0 0 0)))

open Sys2Proof Sys2Proof.Machine Sys2Proof.Claims in
/-- WAITA and TRYWAIT on a word that satisfies the condition as they issue complete at once, TRYWAIT with 1 in s(d); on one that does not,
the team waits, holding the condition, the value and the hint. A WAITA whose wait tag fails raises 0x20, and one or a WAITC whose tag passes
and whose variant is none raises 0x01 with its word (R47, R48, R50, R74, R200 to R202).
WAITC.e on a receive counter of the context's range completes at once where the counter has reached s(b), compared without a sign, and
else the team waits; a counter outside the range raises 0x03, and any other wait tag, .x among them, 0x20 (R47, R48, R295, R351, R352). That the tag is
checked before the variant is log 5. -/
def Obligations.WaitsCompleteOrBlock : Prop :=
  (∀ (s s1 : State) (o : Ops) (w : Nat), quiet s → s.waitWord s.cur (s.regs.source o.a) o.ty.size = .ok (s1, w) →
     let value := s.waitValue o
     let cond := o.var.toNat % 4
     let waiting (k : WaitKind) : State := blocks s1 k
     (s.tagPasses o.mode (s.sreg o.d.num.toNat) = true → o.var.toNat < 3 →
       (waitHolds cond o w value.toNat → nextStands s1 → exec (.waita o) s = .next (onward (s1.setS 0 1))) ∧
       (¬waitHolds cond o w value.toNat →
         exec (.waita o) s = .next (waiting (.word (s.regs.source o.a) (BitVec.ofNat 2 cond) o.ty value none 0)))) ∧
     (cond < 3 →
       (waitHolds cond o w value.toNat → nextStands s1 → exec (.trywait o) s = .next (onward (s1.setS o.d.num.toNat 1))) ∧
       (¬waitHolds cond o w value.toNat →
         exec (.trywait o) s = .next (waiting (.word (s.regs.source o.a) (BitVec.ofNat 2 cond) o.ty value
           (some (256 * 16 ^ (o.var.toNat / 4))) o.d.num.toNat)))) ∧
     (s.tagPasses o.mode (s.sreg o.d.num.toNat) = true → cond = 3 ∨ 4 ≤ o.var.toNat →
       exec (.waita o) s = .next (ends s .illegalInstruction (wordOf (.waita o)) 0 (wordOf (.waita o)))) ∧
     (s.tagPasses o.mode (s.sreg o.d.num.toNat) = false → exec (.waita o) s = .next (ends s .illegalWait 0 0 0))) ∧
  (∀ (s : State) (o : Ops),
     let c := s.ctxAt (s.ctxOf s.cur)
     let n := (s.regs.source o.a).toNat % 4096
     let th := s.regs.source o.b
     (o.mode = 2 → o.var = 0 → c.nbase ≤ n → n < c.nbase + c.ncnt →
       (th.toNat ≤ (s.net.counters.get 0 n).toNat → nextStands s → exec (.waitc o) s = .next (after s s.regs)) ∧
       ((s.net.counters.get 0 n).toNat < th.toNat → exec (.waitc o) s = .next (blocks s (.counter n th)))) ∧
     (o.mode = 2 → o.var ≠ 0 →
       exec (.waitc o) s = .next (ends s .illegalInstruction (wordOf (.waitc o)) 0 (wordOf (.waitc o)))) ∧
     (o.mode = 2 → o.var = 0 → ¬(c.nbase ≤ n ∧ n < c.nbase + c.ncnt) → exec (.waitc o) s = .next (ends s .illegalRegister 0 0 0)) ∧
     (o.mode ≠ 2 → exec (.waitc o) s = .next (ends s .illegalWait 0 0 0)))

open Sys2Proof Sys2Proof.Machine Sys2Proof.Claims in
/-- QBIND binds its queue register as its variant says (load and store streams with base, type, stride, count and position 0; the engines; a live
bed's loam queue), takes a free matrix engine for the gang, stalls while another gang owns it, and raises 0x14 for a misaligned stream, with the
base as its address (log 30), and 0x03 for a handle that names no bed. QUNBIND leaves the register unbound. QINFO gives the word of R115 (R109 to R115). -/
def Obligations.QueueRegistersBindAndUnbind : Prop :=
  ∀ (s : State) (o : Ops), nextStands s →
    let n := o.d.num.toNat
    let base := s.regs.source o.a
    let shape := s.regs.source o.b
    let stride : BitVec 32 := shape.extractLsb' 32 32
    let st : Stream := ⟨base, o.ty, stride, (shape.extractLsb' 0 32).toNat, 0, []⟩
    let aligned := base.toNat % o.ty.size = 0 ∧ stride.toNat % o.ty.size = 0
    let core := s.gang.core
    let engine (b : Binding) : Prop :=
      ((s.coreAt core).engine.owner = none → exec (.qbind o) s =
        .next (onward ((bound s n b).mapCore core (fun c => { c with engine := .first (some s.team.gang) })))) ∧
      ((s.coreAt core).engine.owner = some s.team.gang → exec (.qbind o) s = .next (onward (bound s n b))) ∧
      (∀ g, (s.coreAt core).engine.owner = some g → g ≠ s.team.gang → exec (.qbind o) s = .next s)
    (o.var = 1 → (aligned → exec (.qbind o) s = .next (onward (bound s n (.load st)))) ∧
      (¬aligned → exec (.qbind o) s = .next (ends s .misalignment (BitVec.ofNat 64 base.toNat) 0 (BitVec.ofNat 64 base.toNat)))) ∧
    (o.var = 2 → (aligned → exec (.qbind o) s = .next (onward (bound s n (.store st)))) ∧
      (¬aligned → exec (.qbind o) s = .next (ends s .misalignment (BitVec.ofNat 64 base.toNat) 0 (BitVec.ofNat 64 base.toNat)))) ∧
    (o.var = 3 → engine .matrix) ∧ (o.var = 4 → engine .epilogue) ∧
    (o.var = 5 → exec (.qbind o) s = .next (onward (bound s n .copy))) ∧
    (o.var = 6 → exec (.qbind o) s = .next (onward (bound s n .network))) ∧
    (o.var = 7 → ((s.bedOf (s.ctxOf s.cur) (base.setWidth 24)).isSome = true →
        exec (.qbind o) s = .next (onward (bound s n (.loam (base.setWidth 24))))) ∧
      (s.bedOf (s.ctxOf s.cur) (base.setWidth 24) = none → exec (.qbind o) s = .next (ends s .illegalRegister 0 0 0))) ∧
    exec (.qunbind o) s = .next (after s { s.regs with q := s.regs.q.erase n }) ∧
    exec (.qinfo o) s = .next (after s (s.regs.setS n (s.queueInfo o.a.num.toNat)) (scal n))

/-! ### Commands of the copy and matrix engines -/

namespace Sys2Proof.Claims
open Sys2Proof.Machine

/-- The commands pending in the core's scheduler that a new command of the issuing team has an edge from: those of its context with an
overlapping region that one of the two writes, local regions only within the gang, and loam commands of one bed (R254, R275). -/
def edgesFor (s : State) (kind : CmdKind) (rs : List Region) : List Nat :=
  ((s.coreAt s.gang.core).cmds.filter (fun e => e.precedes (s.ctxOf s.cur) s.team.gang kind rs)).map (fun e => e.id)

/-- The state in which a command of the issuing team's instruction has entered the scheduler of its core, its operands read, last in order, with
its edges, not started (R274, R275). -/
def entersCommand (s : State) (i : Instr) (kind : CmdKind) (rs : List Region) (done : Completion) : State :=
  (s.mapCore s.gang.core (fun c => { c with cmds := c.cmds ++
    [⟨s.hub.nextCmd, s.cur, s.team.gang, s.ctxOf s.cur, s.regs.pc, (encode i).getD 0, kind, rs, edgesFor s kind rs, false, false, 0, none, done⟩] })).mapHub
    (fun h => { h with nextCmd := h.nextCmd + 1 })

/-- The operands of a copy command, read from its group of registers (R277, R279 to R281): its fields, payload counts and strides; those that
its dimensions do not use are 1 and 0. -/
def copyOf (s : State) (i : Instr) : Option (Ops × CopyCmd) :=
  let r (o : Ops) (n : Nat) : DWord := s.sreg (o.a.num.toNat + n)
  let lo (x : DWord) : Nat := x.toNat % 2 ^ 32
  let hi (x : DWord) : Nat := x.toNat / 2 ^ 32
  let dims (o : Ops) : Nat := o.var.toNat % 4 + 1
  let at2 (o : Ops) (x : DWord) : DWord := if 2 ≤ dims o then x else 0
  let at3 (o : Ops) (x : DWord) : DWord := if 3 ≤ dims o then x else 0
  let n1 (o : Ops) : Nat := if 2 ≤ dims o then hi (r o 2) else 1
  let n2 (o : Ops) : Nat := if 3 ≤ dims o then lo (r o 3) else 1
  match i with
  | .cpy o => if o.var.toNat % 4 = 3 then none else
      some (o, .copy (r o 0) (r o 1) (lo (r o 2)) (n1 o) (n2 o) (at2 o (r o 4)) (at2 o (r o 5)) (at3 o (r o 6)) (at3 o (r o 7)))
  | .cpyf o => if o.var.toNat % 4 = 3 then none else
      some (o, .fill (r o 0) (r o 1) o.ty.size (lo (r o 2)) (n1 o) (n2 o) (at2 o (r o 4)) (at3 o (r o 6)))
  | .cpyg o => if o.var.toNat % 4 ≠ 0 then none else
      some (o, .gather (r o 0) (r o 1) (hi (r o 2)) (lo (r o 2)) (r o 3) o.ty (r o 4) (r o 5) (r o 6).toNat)
  | _ => none

/-- The completion that a spec register names: with [23] the word at [20:0] takes [63:32], with [22] barrier [27:24] is credited (R278). -/
def doneOf (o : Ops) (spec : DWord) : Completion :=
  ⟨if o.var.getLsbD 3 then some (spec.toNat % 2 ^ 21, spec.extractLsb' 32 32) else none,
    if o.var.getLsbD 2 then some (spec.toNat / 2 ^ 24 % 16) else none⟩

/-- The room that a command of the matrix engine needs: 32 in its queue and 64 in the scheduler (R259). -/
def engineRoom (s : State) : Prop :=
  (s.coreAt s.gang.core).cmds.length < 64 ∧ (s.coreAt s.gang.core).matrixCount < 32

/-- A command of the matrix engine whose checks of R298 pass: its fields, the command with its operands read, its regions, its completion, and
what it notes in the engine at issue. -/
def matrixOf (s : State) (i : Instr) : Option (Ops × MatrixCmd × List Region × Completion × (Engine → Engine)) :=
  let off (x : DWord) (n : Nat) : Nat := x.toNat / 2 ^ n % 2 ^ 32
  let mma (o : Ops) (form : MmaForm) : Option (Ops × MatrixCmd × List Region × Completion × (Engine → Engine)) :=
    let w0 := s.sreg o.a.num.toNat
    let w1 := s.sreg (o.a.num.toNat + 1)
    let offs := s.regs.source o.b
    let xs := mmaRegions form w0 w1 (off offs 0) (off offs 32)
    if o.var ≠ 0 || o.a.num = 0 || o.a.num.toNat % 2 ≠ 0 || illFormed form w0 w1 || (s.regionCheck 16 xs).isSome then none
    else some (o, .mma form w0 w1 (off offs 0) (off offs 32), xs.map (scratchRegion s.gang.scratch), ⟨none, none⟩, id)
  match i with
  | .mma o => mma o .dense
  | .mmaSp o => mma o .sparse
  | .mmaTri o => mma o .triangular
  | .scld o =>
    let a := (s.regs.source o.a).toNat
    let x := (s.regs.source o.b).toNat
    let first := x % 2 ^ 13
    let count := x / 2 ^ 32
    if o.var ≠ 0 || x / 2 ^ 13 % 2 ^ 19 ≠ 0 || count = 0 || 8192 < first + count || 2 ^ 14 ≤ count || a % 2 ≠ 0
        || s.gang.scratch < a + 2 * count then none
    else some (o, .scld a first count, [⟨windowBase + a, 2 * count, false⟩], ⟨none, none⟩, id)
  | .accz o => if o.var ≠ 0 then none else some (o, .accz, [], ⟨none, none⟩, id)
  | .accadv o =>
    let spec := s.regs.source o.b
    if o.var.toNat % 4 ≠ 0 || (s.specCheck spec (o.var.getLsbD 3) (o.var.getLsbD 2)).isSome then none
    else some (o, .accadv, (s.coreAt s.gang.core).engine.cfgIssued.region, doneOf o spec, id)
  | .epcfg o =>
    let w0 := s.sreg o.a.num.toNat
    let w1 := s.sreg (o.a.num.toNat + 1)
    let bounds := s.regs.source o.b
    let c := epConfigOf w0 bounds
    if o.var ≠ 0 || o.a.num = 0 || o.a.num.toNat % 2 ≠ 0 || (s.epcfgCheck c w0 w1).isSome then none
    else some (o, .epcfg w0 w1 bounds, (epVectors c w1).map (scratchRegion s.gang.scratch), ⟨none, none⟩,
      fun e => { e with cfgIssued := c })
  | _ => none

/-- A drained tile open again: its captured configuration is gone, the next passed tile is the oldest, and the drained count has risen
(R308, R310). -/
def opensTile (s : State) (core tile : Nat) : State :=
  s.mapCore core (fun k => { k with engine := { k.engine with
    states := k.engine.states.put .isOpen tile .isOpen
    captured := k.engine.captured.erase tile
    passed := k.engine.passed.drop 1
    drain := none
    drained := k.engine.drained + 1 } })

/-- A stalled push: nothing is pushed, and the count of the stall runs from where it stands (R260). -/
def stalls (s : State) : State := s.setTeam { s.team with stalled := some (s.team.stalled.getD 0), stuck := some true }

/-- A stall on the queue of another unit: nothing is pushed, no count of R260 runs, and its cycles are counted in event 7 (R260, R356). -/
def stallsThere (s : State) : State := s.setTeam { s.team with stalled := none, stuck := some true }

end Sys2Proof.Claims

open Sys2Proof Sys2Proof.Machine Sys2Proof.Claims in
/-- CPY, CPYF and CPYG through a queue register bound to the copy engine: where the checks of R282 pass and the scheduler has room, the
command enters it with its operands, regions, edges and completion, and the instruction goes on; a full scheduler stalls the push, an
unbound register raises 0x03, and a check that fails is the stop that R282 gives (R109, R260, R274 to R282). The model's choices: which
check comes first (log 5), and TVAL of a check on an operand (log 30). -/
def Obligations.CopyInstructionEntersItsCommand : Prop :=
  ∀ (s : State) (i : Instr) (o : Ops) (c : CopyCmd), copyOf s i = some (o, c) →
    let check := s.copyCheck c (s.regs.source o.b) (o.var.getLsbD 3) (o.var.getLsbD 2)
    (s.targetOf o = some .copy → check = none → (s.coreAt s.gang.core).cmds.length < 64 → nextStands s →
      exec i s = .next (onward (entersCommand s i (.copy c) (c.spans.map Span.region) (doneOf o (s.regs.source o.b))))) ∧
    (s.targetOf o = some .copy → check = none → 64 ≤ (s.coreAt s.gang.core).cmds.length → exec i s = .next (stalls s)) ∧
    (s.targetOf o ≠ some .copy → exec i s = .next (ends s .illegalRegister 0 0 0)) ∧
    (∀ cause va acc, s.targetOf o = some .copy → check = some (.trap cause va acc false) → exec i s = .next (ends s cause va acc va))

open Sys2Proof Sys2Proof.Machine Sys2Proof.Claims in
/-- MMA, MMA.SP, MMA.TRI, SCLD, ACCZ, ACCADV and EPCFG through a queue register bound to the matrix engine: where the checks of R298 pass and
the queue and scheduler have room, the command enters with its operands read, the interval is sealed, and the instruction goes on; a full
queue stalls the push; another binding raises 0x03, and an ill-formed format block 0x31. MSTAT gives the owner the status word (R297 to
R319). The model's choice: which check comes first (log 5). -/
def Obligations.MatrixInstructionEntersItsCommand : Prop :=
  (∀ (s : State) (i : Instr) (o : Ops) (m : MatrixCmd) (rs : List Region) (done : Completion) (note : Engine → Engine),
    matrixOf s i = some (o, m, rs, done, note) → s.targetOf o = some .matrix →
    (engineRoom s → nextStands s → exec i s = .next (onward (((entersCommand s i (.matrix m) rs done).mapCore s.gang.core
      (fun k => { k with engine := note k.engine })).sealInterval s.team.gang))) ∧
    (¬engineRoom s → exec i s = .next (stalls s))) ∧
  (∀ (s : State) (o : Ops), s.targetOf o ≠ some .matrix →
    ∀ i ∈ [Instr.mma o, .mmaSp o, .mmaTri o, .scld o, .accz o, .accadv o, .epcfg o], exec i s = .next (ends s .illegalRegister 0 0 0)) ∧
  (∀ (s : State) (o : Ops), s.targetOf o = some .matrix → o.var = 0 → o.a.num ≠ 0 → o.a.num.toNat % 2 = 0 →
    illFormed .dense (s.sreg o.a.num.toNat) (s.sreg (o.a.num.toNat + 1)) = true → exec (.mma o) s = .next (ends s .formatFault 0 0 0)) ∧
  (∀ (s : State) (o : Ops), nextStands s → exec (.mstat o) s = .next (after s (s.regs.setS o.d.num.toNat
    (if (s.coreAt s.gang.core).engine.owner = some s.team.gang then (s.coreAt s.gang.core).matrixStatus else 0)) (scal o.d.num.toNat)))

open Sys2Proof Sys2Proof.Machine Sys2Proof.Claims in
/-- The copy engine: a command without pending edges starts while fewer than four run; each run moves the bytes of the source that R279 to
R281 name to the destination, a gathered row from one source whose index is read once; with its payload performed, also at apply slots, the
command leaves the scheduler, writes its completion word and credits its barrier, or where the barrier's record is poisoned charges its team with
0x40 (R175). A run of a CPYF in its gang's scratchpad writes there exactly the bytes of its pattern, repeated from the start of the row on (R276 to
R281). The model's choices: runs in ascending order (log 3), the engine reads its core's dirty words (log 25), and the address 0 of a consumed
record (log 85). -/
def Obligations.CopyEngineMovesAndCompletes : Prop :=
  ∀ (s : State) (core id runs : Nat) (x : Cmd) (c : CopyCmd), (s.coreAt core).command id = some x → x.kind = .copy c →
    (x.started = false → s.unblocked x = true → (s.coreAt core).copying < 4 →
      exec (.copyCommandStart core id runs) s =
        .next ((s.mapCore core (fun k => k.mapCommand id (fun y => { y with started := true }))).copyRuns core id runs)) ∧
    (x.started = true → exec (.copyCommandStart core id runs) s = .next (s.copyRuns core id runs)) ∧
    (x.started = false → s.unblocked x = false ∨ 4 ≤ (s.coreAt core).copying →
      exec (.copyCommandStart core id runs) s = .next s) ∧
    (∀ s1 s2 s3 src bs, x.stopped = false → x.progress < c.bytes →
      let row := x.progress / c.runBytes
      let at_ := x.progress % c.runBytes
      let n := min (c.runBytes - at_) (128 - ((c.rowDest row).toNat + at_) % 128)
      s.rowSource core x c row = .ok (s1, src) →
      (s1.mapCore core (fun k => k.mapCommand x.id (fun y => { y with rowSrc := src }))).runSource core x c src row at_ n = .ok (s2, bs) →
      s2.engineWriteMarked (some core) x.gang x.ctx (.command core x.id) ((c.rowDest row).toNat + at_) bs 0x22 = .ok s3 →
      s.copyRuns core id 1 = ((s3.audited x.gang ((c.rowDest row).toNat + at_) (bs.map (fun b => b.1))).mapCore core
        (fun k => k.mapCommand x.id (fun y => { y with progress := y.progress + n, rowSrc := if at_ + n = c.runBytes then none else src }))).count
          x.gang 10 n) ∧
    (∀ d pattern z n0 n1 n2 ds1 ds2, c = .fill d pattern z n0 n1 n2 ds1 ds2 → x.stopped = false → x.progress < c.bytes →
      let at_ := x.progress % n0
      let dst := (c.rowDest (x.progress / n0)).toNat + at_
      let n := min (n0 - at_) (128 - dst % 128)
      let off := dst - windowBase
      windowBase ≤ dst → dst < 2 ^ 57 → off + n ≤ (s.gangAt x.gang).scratch →
      ∀ a, ((s.copyRuns core id 1).gangAt x.gang).scratchpad.byte a =
        if off ≤ a ∧ a < off + n then pattern.extractLsb' (8 * ((at_ + (a - off)) % z)) 8 else (s.gangAt x.gang).scratchpad.byte a) ∧
    (x.started = true → c.bytes ≤ x.progress → s.writesOf (.command core id) = true → exec (.copyCommandComplete core id) s = .next s) ∧
    (x.started = true → c.bytes ≤ x.progress → s.writesOf (.command core id) = false → (s.gangAt x.gang).state = .resident →
      exec (.copyCommandComplete core id) s = .next (
        let dropped := s.mapCore core (fun k => { k with cmds := k.cmds.filter (fun y => y.id ≠ x.id) })
        let worded := match x.completion.word with
          | some (off, v) => dropped.mapGang x.gang (fun g => g.store off (leBytes 4 v.toNat))
          | none => dropped
        match x.completion.barrier with
        | some b =>
          if .barrier b ∈ (worded.gangAt x.gang).badSync then worded.charge x .errorConsumed 0 0 none else worded.creditBarrier x.gang b c.bytes
        | none => worded))

open Sys2Proof Sys2Proof.Machine Sys2Proof.Claims in
/-- The matrix engine performs its queue in order: ACCZ clears tile h; SCLD fills scale entries; EPCFG takes effect with its vectors read;
ACCADV captures the configuration and passes tile h to the epilogue; a native MMA writes its products into tile h; and a command whose
formats are not native stops the queue and charges its team with 0x30. The engine's island wakes, and its cycles are counted in event 9 and in the
figure a of R354. A tile or a scale entry that is written is no longer poisoned (R175). A command that may not start leaves everything as
it is (R16, R302 to R316, R354, R356). The model's choices: a command to be emulated waits for drains (log 39), and how many cycles a command counts,
none where it is emulated (log 23). -/
def Obligations.MatrixEnginePerformsItsQueue : Prop :=
  ∀ (s : State) (core : Nat) (x : Cmd) (m : MatrixCmd),
    (s.coreAt core).cmds.find? (fun y => y.isMatrix && !y.started) = some x → x.kind = .matrix m →
    let e := (s.coreAt core).engine
    let g := s.gangAt x.gang
    let w := s.wakeMatrix core
    let cycles (t : State) (n : Nat) : Out := .next ((t.mapGang x.gang (fun k => { k with work := k.work + 16 * n })).count x.gang 9 n)
    let worked (t : State) : Out := cycles t (m.cycles g)
    let engine (e' : Engine) : State := w.mapCore core (fun k => { k with engine := e' })
    let sound (t : Nat) : List Nat := e.bad.filter (fun b => b / 4096 ≠ t)
    (e.emulating.isSome = true ∨ s.mayStart core x m = false → exec (.matrixCommandStart core) s = .next s) ∧
    (e.emulating = none → s.mayStart core x m = true →
      (m = .accz → exec (.matrixCommandStart core) s = worked ((engine { e with tiles := e.tiles.set e.head [], bad := sound e.head }).completeCommand core x 0)) ∧
      (m = .accadv → exec (.matrixCommandStart core) s = worked (w.mapCore core (fun k =>
        { (k.mapCommand x.id (fun y => { y with started := true })) with engine := { e with
          captured := e.captured.set e.head e.cfg
          states := e.states.put .isOpen e.head .pending
          passed := e.passed ++ [(e.head, x.id)]
          head := (e.head + 1) % 16 } }))) ∧
      (∀ off first count, m = .scld off first count → g.poisoned off (2 * count) = false →
        exec (.matrixCommandStart core) s = worked ((engine { e with
          scales := (List.range count).foldl (fun (z : Map (BitVec 10)) n =>
            z.put 0 (first + n) (BitVec.ofNat 10 (leNat (g.scratchpad.read (off + 2 * n) 2)))) e.scales
          bad := e.bad.filter (fun b => !(65536 + first ≤ b && b < 65536 + first + count)) }).completeCommand core x 0)) ∧
      (∀ w0 w1 bounds, m = .epcfg w0 w1 bounds → (epConfigOf w0 bounds).scale = false → (epConfigOf w0 bounds).bias = false →
        exec (.matrixCommandStart core) s = worked ((engine { e with cfg := epConfigOf w0 bounds }).completeCommand core x 0)) ∧
      (∀ form w0 w1 a b, m = .mma form w0 w1 a b → isNative w0 = true → (w.mmaIn core x form w0 w1 a b).poisoned = none →
        exec (.matrixCommandStart core) s = worked ((engine { e with
          tiles := e.tiles.set e.head ((w.mmaIn core x form w0 w1 a b).tile (e.tiles.get [] e.head))
          bad := sound e.head }).completeCommand core x 0)) ∧
      (∀ form w0 w1 a b, m = .mma form w0 w1 a b → isNative w0 = false →
        exec (.matrixCommandStart core) s = cycles (w.startEmulation core x) 0))

open Sys2Proof Sys2Proof.Machine Sys2Proof.Claims in
/-- Products of a dense command on native integer formats (R93, R299, R302): word (i, j) of the tile becomes its old value plus the sum over k of
A(i, k)·B(j, k), modulo 2^32, the elements standing row by row in scratchpad. -/
def Obligations.DenseIntegerProductsAccumulate : Prop :=
  ∀ (g : Gang) (e : Engine) (w0 w1 : DWord) (a b ha hb i j : Nat) (old : Map Word32),
    let m : MmaIn := ⟨g, e, .dense, w0, w1, a, b, ha, hb⟩
    let k := blockK w0
    let element (code : Nat) (x : BitVec 8) : Int := if code = 1 then x.toInt else x.toNat
    (fmtA w0 = 1 ∨ fmtA w0 = 2) → fmtB w0 = fmtA w0 → i < 64 → j < 64 →
    (m.tile old).get 0 (64 * i + j) = old.get 0 (64 * i + j) + BitVec.ofInt 32 ((List.range k).foldl (fun (n : Int) t =>
      n + element (fmtA w0) (g.scratchpad.byte (a + (i * k + t))) * element (fmtB w0) (g.scratchpad.byte (b + (j * k + t)))) 0)

open Sys2Proof Sys2Proof.Machine Sys2Proof.Claims in
/-- The epilogue and the firmware: the oldest passed tile is drained under its captured configuration, its words placed in the output queue as far
as there is room; with every output word placed, or its rows in scratchpad, the tile opens, the drained count rises and the ACCADV
completes; a poisoned word of the tile is charged to its ACCADV with 0x40. The end of an emulation that a hart of the cluster serves restarts the
queue, ends the team's park and writes the tile (MMA.SP without a live quad leaves it, and the masked words of MMA.TRI are its constant), or ends the
dispatch with 0x31 where the firmware defines no format, with 0x12 where a region of its sizes leaves the scratchpad, and with 0x40 where it reads a
poisoned word (R175, R304, R305, R310, R312, R316, R317, R359, R390). The model's choices: rows are written when the drain ends (log 38), formats 7
to 14 and their sizes are carried by the event (log 12), and the address 0 of a poisoned tile (log 85). -/
def Obligations.EpilogueDrainsAndEmulationEnds : Prop :=
  (∀ (s : State) (core tile id : Nat) (rest : List (Nat × Nat)),
    let e := (s.coreAt core).engine
    let c := e.capturedCfg tile
    e.drain = none → e.passed = (tile, id) :: rest →
    (e.badTile tile = false → exec (.epilogueDrainStart core) s = .next (((s.wakeMatrix core).mapCore core (fun k => { k with engine := { e with
      states := e.states.put .isOpen tile .draining
      drain := some ⟨tile, id, if c.toQueue then wordsOf (c.rows (e.tiles.get [] tile)).flatten else []⟩ } })).feedDrain core)) ∧
    (∀ x, e.badTile tile = true → (s.coreAt core).command id = some x → x.stopped = false →
      exec (.epilogueDrainStart core) s = .next (s.chargeEnd core x .errorConsumed 0 0x21))) ∧
  (∀ (s : State) (core : Nat) (d : Drain),
    let e := (s.coreAt core).engine
    let c := e.capturedCfg d.tile
    let n := min d.words.length (4096 - e.outq.length)
    let fed := s.mapCore core (fun k => { k with engine := { e with outq := e.outq ++ d.words.take n, drain := some { d with words := d.words.drop n } } })
    e.drain = some d →
    (n < d.words.length ∨ c.toQueue = false → s.feedDrain core = fed) ∧
    (∀ x, n = d.words.length → c.toQueue = true → (s.coreAt core).command d.command = some x →
      s.feedDrain core = (opensTile fed core d.tile).completeCommand core x 0)) ∧
  (∀ (s : State) (core : Nat) (d : Drain) (x : Cmd),
    let e := (s.coreAt core).engine
    let c := e.capturedCfg d.tile
    e.drain = some d → (s.coreAt core).command d.command = some x →
    (d.words ≠ [] → exec (.epilogueDrainEnd core) s = .next s) ∧
    (d.words = [] → c.toQueue = true → exec (.epilogueDrainEnd core) s = .next ((opensTile s core d.tile).completeCommand core x 0)) ∧
    (d.words = [] → c.toQueue = false → exec (.epilogueDrainEnd core) s = .next (
      (opensTile (s.mapGang x.gang (fun g => g.storeRows c (c.rows (e.tiles.get [] d.tile)))) core d.tile).completeCommand core x
        (64 * c.rowSize)))) ∧
  (∀ (s : State) (core id : Nat) (x : Cmd) (form : MmaForm) (w0 w1 : DWord) (a b : Nat),
    (s.coreAt core).engine.emulating = some id → (s.coreAt core).command id = some x → x.kind = .matrix (.mma form w0 w1 a b) →
    let e := (s.coreAt core).engine
    let s1 := ((s.mapCore core (fun k => { k with engine := { k.engine with emulating := none } })).serveRequests).endEmulationPark x
    (s.hartServes core = false → ∀ fw, exec (.emulationComplete core fw) s = .next s) ∧
    (s.hartServes core = true →
    (fmtA w0 < 7 → fmtB w0 < 7 → (∀ fw, exec (.emulationComplete core fw) s = .next (s1.performMma core x (s1.mmaIn core x form w0 w1 a b)))) ∧
    (7 ≤ fmtA w0 ∨ 7 ≤ fmtB w0 →
      exec (.emulationComplete core none) s = .next (s1.endTeam x.team .formatFault x.pc 0 0x20 0) ∧
      (∀ fw : Emulated,
        let halves (code given : Nat) : Nat := if code < 7 then matHalves code else given
        let ha := halves (fmtA w0) fw.halvesA
        let hb := halves (fmtB w0) fw.halvesB
        let outside := (mmaSized form w0 w1 a b ha hb).find? (beyondScratch (s.gangAt x.gang).scratch)
        let m : MmaIn := { s1.mmaIn core x form w0 w1 a b with ha := ha, hb := hb }
        let bad := m.poisoned
        let kept := form = .sparse ∧ (m.gang.liveQuads (w1.extractLsb' 0 21).toNat (blockK w0)) = []
        let word (n : Nat) : BitVec 32 := if m.masked (n / 64) (n % 64) then w1.extractLsb' 0 32 else fw.words.getD n 0
        (∀ r, outside = some r → exec (.emulationComplete core (some fw)) s =
          .next (s1.endTeam x.team .windowKind x.pc (localAddress r.1) 0x20 (localAddress r.1))) ∧
        (∀ va, outside = none → bad = some va → exec (.emulationComplete core (some fw)) s =
          .next (s1.chargeEnd core x .errorConsumed va 0x21)) ∧
        (outside = none → bad = none → exec (.emulationComplete core (some fw)) s =
          .next ((s1.mapCore core (fun k => { k with engine := { k.engine with
            tiles := k.engine.tiles.set k.engine.head (if kept then e.tiles.get [] e.head else
              (List.range 4096).filterMap (fun n => if word n = 0 then none else some (n, word n)))
            bad := k.engine.bad.filter (fun b => b / 4096 ≠ k.engine.head) } })).completeCommand core x 0))))))

/-! ### Network, loam and operator instructions, and the privileged ones -/

namespace Sys2Proof.Claims
open Sys2Proof.Machine

/-- A deferred instruction that has an effect still to come: its result is written to d once the effect is made (R361). -/
def defers (s : State) (d : BitVec 8) (k : DeferredOp) : State :=
  s.setTeam { s.team with deferred := s.team.deferred ++ [⟨s.regs.pc, d.toNat, k⟩] }

/-- The kind and the fields of a network command. -/
def netOf (i : Instr) : Option (NetKind × Ops) :=
  match i with
  | .npost o => some (.npost, o)
  | .nunpost o => some (.nunpost, o)
  | .nsend o => some (.nsend, o)
  | .nsendt o => some (.nsendt, o)
  | _ => none

/-- The command that a group of four registers, a completion spec and a kind give (R286, R287). -/
def netCommand (s : State) (o : Ops) (kind : NetKind) : NetCmd :=
  let w (n : Nat) : DWord := s.sreg (o.a.num.toNat + n)
  let spec := s.regs.source o.b
  { team := s.cur, gang := s.team.gang, ctx := s.ctxOf s.cur, pc := s.regs.pc, kind := kind
    va := w 0
    offset := w 1
    len := ((w 2).extractLsb' 32 32).toNat
    conn := ((w 2).extractLsb' 16 16).toNat
    buffer := ((w 2).extractLsb' 8 8).toNat
    counter := ((w 3).extractLsb' 52 12).toNat
    threshold := ((w 3).extractLsb' 0 52).toNat
    word := if o.var.getLsbD 3 then some ((spec.extractLsb' 0 21).toNat, spec.extractLsb' 32 32) else none }

/-- The checks of R286: the connection and the counter in the context's ranges, a length that is not 0 and low bits that are, a completion
word in the gang's scratchpad, and a local range of addresses below 2^57. -/
def netStands (s : State) (o : Ops) (c : NetCmd) : Prop :=
  let x := s.ctxAt c.ctx
  let spec := s.regs.source o.b
  (x.cbase ≤ c.conn ∧ c.conn < x.cbase + x.ccnt) ∧
  ((c.kind = .npost ∨ c.kind = .nsendt) → x.nbase ≤ c.counter ∧ c.counter < x.nbase + x.ncnt) ∧
  (c.kind ≠ .nunpost → c.len ≠ 0 ∧ (s.sreg (o.a.num.toNat + 2)).extractLsb' 0 8 = 0 ∧ c.va.toNat + c.len ≤ 2 ^ 57) ∧
  (o.var.getLsbD 3 = true → spec.extractLsb' 21 11 = 0 ∧ (spec.extractLsb' 0 21).toNat % 4 = 0 ∧
    (spec.extractLsb' 0 21).toNat + 4 ≤ s.gang.scratch)

/-- A field descriptor: start, width and sign of its low 16 bits, the others zero, its rows below 480 (R241). -/
def descriptor (x : BitVec 32) : Option Field :=
  if x.extractLsb' 16 16 = 0 ∧ (x.extractLsb' 0 9).toNat + (x.extractLsb' 9 6).toNat + 1 ≤ 480 then
    some ⟨(x.extractLsb' 0 9).toNat, (x.extractLsb' 9 6).toNat + 1, x.getLsbD 15⟩
  else none

/-- The operation of a computing loam command whose fields stand: D and X, for the two-source forms Y or with .c the constant, and the
mask of .m, which is one row wide (R246 to R249). -/
def loamOf (s : State) (i : Instr) : Option (Ops × LoamOp × Option Field) :=
  let lo (o : Ops) : DWord := s.sreg o.a.num.toNat
  let hi (o : Ops) : DWord := s.sreg (o.a.num.toNat + 1)
  let d (o : Ops) : Option Field := descriptor ((lo o).extractLsb' 0 32)
  let x (o : Ops) : Option Field := descriptor ((lo o).extractLsb' 32 32)
  let y (o : Ops) : Option Field := descriptor ((hi o).extractLsb' 0 32)
  let mask (o : Ops) : Option (Option Field) :=
    if o.var.getLsbD 3 then (match descriptor ((hi o).extractLsb' 32 32) with
      | some f => if f.width = 1 then some (some f) else none
      | none => none)
    else some none
  let sub (o : Ops) : Nat := o.var.toNat % 4
  let all (o : Ops) (op : Field → Field → LoamOp) : Option (Ops × LoamOp × Option Field) :=
    match d o, x o, mask o with
    | some d, some x, some m => some (o, op d x, m)
    | _, _, _ => none
  let one (o : Ops) (p : Bool) (op : Field → Field → LoamOp) : Option (Ops × LoamOp × Option Field) :=
    if p && !o.var.getLsbD 2 then all o op else none
  let two (o : Ops) (p : Bool) (op : Field → Field → LoamSrc → LoamOp) : Option (Ops × LoamOp × Option Field) :=
    if !p then none
    else if o.var.getLsbD 2 then
      match x o with
      | some f => all o (fun d x => op d x (.const (intOf f.signed f.width (s.regs.source o.b).toNat)))
      | none => none
    else if o.b = .reg 0 then
      match y o with
      | some f => all o (fun d x => op d x (.field f))
      | none => none
    else none
  let narrow (o : Ops) : Bool := match d o with | some f => f.width = 1 | none => false
  match i with
  | .ladd o => two o (sub o = 0) .add
  | .lsub o => two o (sub o = 0) .sub
  | .lmul o => two o (sub o = 0) .mul
  | .llog o => if sub o = 3 then one o (o.b = .reg 0) (fun d x => .logic 3 d x (.const 0)) else two o true (.logic (o.var.extractLsb' 0 2))
  | .lcmp o => two o (narrow o) (.cmp (o.var.extractLsb' 0 2))
  | .lsel o => two o (sub o = 0 && o.var.getLsbD 3) .sel
  | .lmm o => two o (sub o < 2) (.mm (sub o = 1))
  | .lshf o => one o (sub o < 3) (fun d x => .shift (o.var.extractLsb' 0 2) d x ((s.regs.source o.b).extractLsb' 0 6).toNat)
  | .lred o => one o true (fun d x => .red (o.var.extractLsb' 0 2) d x ((s.regs.source o.b).extractLsb' 0 5).toNat)
  | .lmatch o => one o (sub o = 0 && narrow o) (fun d x => .matches d x (s.regs.source o.b))
  | .lcnt o => one o (sub o = 0 && o.b = .reg 0) .count
  | _ => none

/-- LMIN and LMOUT of `n` elements from lane `l0` on of a bed of `lanes` lanes, whose fields and addresses stand, and LDONE: the operation, its
mask and its regions (R247, R250, R252). -/
def loamMove (s : State) (lanes : Nat) (i : Instr) : Option (Ops × LoamOp × Option Field × List Region) :=
  let lo (o : Ops) : DWord := s.sreg o.a.num.toNat
  let hi (o : Ops) : DWord := s.sreg (o.a.num.toNat + 1)
  let move (o : Ops) (writes : Bool) (op : Field → Nat → Nat → DWord → LoamOp) : Option (Ops × LoamOp × Option Field × List Region) :=
    let l0 := ((lo o).extractLsb' 32 32).toNat
    let n := ((hi o).extractLsb' 0 32).toNat
    let va := s.regs.source o.b
    match descriptor ((lo o).extractLsb' 0 32) with
    | none => none
    | some f =>
      let z := if f.width ≤ 8 then 1 else if f.width ≤ 16 then 2 else if f.width ≤ 32 then 4 else 8
      if o.var.toNat % 8 ≠ 0 ∨ n = 0 ∨ lanes < l0 + n ∨ 2 ^ 57 ≤ va.toNat ∨ va.toNat % z ≠ 0 then none
      else if o.var.getLsbD 3 then
        match descriptor ((hi o).extractLsb' 32 32) with
        | some m => if m.width = 1 then some (o, op f l0 n va, some m, [⟨va.toNat, n * z, writes⟩]) else none
        | none => none
      else some (o, op f l0 n va, none, [⟨va.toNat, n * z, writes⟩])
  match i with
  | .lmin o => move o false .lmin
  | .lmout o => move o true .lmout
  | .ldone o =>
    let off := (s.regs.source o.a).toNat
    if o.var = 0 ∧ off % 4 = 0 ∧ off + 4 ≤ s.gang.scratch then
      some (o, .done off ((s.regs.source o.b).setWidth 32), none, [⟨windowBase + off, 4, true⟩])
    else none
  | _ => none

/-- The room that a command for a bed needs: 64 at the bed and 64 in the scheduler (R254, R259). -/
def loamRoom (s : State) (sl bed : Nat) : Prop :=
  (s.bedQueue sl bed).length < 64 ∧ (s.coreAt s.gang.core).cmds.length < 64

/-- A privileged instruction of the issuing team may act on the things of a function: its own, or as function 0 on any (R366, R367, R370). -/
def mayActOn (s : State) (fn : Nat) : Prop := s.fnOf (s.ctxOf s.cur) = 0 ∨ s.fnOf (s.ctxOf s.cur) = fn

end Sys2Proof.Claims

open Sys2Proof Sys2Proof.Machine Sys2Proof.Claims in
/-- NPOST, NUNPOST, NSEND and NSENDT through a queue register bound to the network: where the checks of R286 pass and the core's network queue
has room, the command enters it, the interval is sealed, and the instruction goes on; a full queue stalls it, and another binding raises
0x03. NCNT gives a receive counter of the context's range, and with .sub takes s(b) from it in the same change; one outside raises 0x03
(R109, R259, R285, R286, R295, R372). The model's choice: which check comes first (log 5). -/
def Obligations.NetworkInstructionEntersItsCommand : Prop :=
  (∀ (s : State) (i : Instr) (kind : NetKind) (o : Ops), netOf i = some (kind, o) →
    let c := netCommand s o kind
    (s.targetOf o = some .network → o.var.toNat % 8 = 0 → netStands s o c →
      ((s.coreAt s.gang.core).netq.length < 32 → nextStands s →
        exec i s = .next (onward ((s.mapCore s.gang.core (fun k => { k with netq := k.netq ++ [c] })).sealInterval s.team.gang))) ∧
      (32 ≤ (s.coreAt s.gang.core).netq.length → exec i s = .next (stallsThere s))) ∧
    (s.targetOf o ≠ some .network → exec i s = .next (ends s .illegalRegister 0 0 0))) ∧
  (∀ (s : State) (o : Ops),
    let x := s.ctxAt (s.ctxOf s.cur)
    let n := ((s.regs.source o.a).extractLsb' 0 12).toNat
    let old := s.net.counters.get 0 n
    (x.nbase ≤ n → n < x.nbase + x.ncnt →
      (o.var.getLsbD 0 = false → nextStands s → exec (.ncnt o) s = .next (onward (deferring s o.d.num old))) ∧
      (o.var.getLsbD 0 = true → nextStands s → s.net.armed = [] → (∀ p ∈ s.teams, ∀ w, p.2.status ≠ .waiting w) →
        exec (.ncnt o) s = .next (onward (deferring
          (s.mapNet (fun k => { k with counters := k.counters.put 0 n (old - s.regs.source o.b) })) o.d.num old))) ∧
      (∀ t, o.var.getLsbD 0 = true → t = s.setCounter n (old - s.regs.source o.b) → nextStands t →
        exec (.ncnt o) s = .next (onward (deferring t o.d.num old)))) ∧
    (¬(x.nbase ≤ n ∧ n < x.nbase + x.ncnt) → exec (.ncnt o) s = .next (ends s .illegalRegister 0 0 0)))

open Sys2Proof Sys2Proof.Machine Sys2Proof.Claims in
/-- LADD, LSUB, LMUL, LLOG, LCMP, LSEL, LMM, LSHF, LRED, LMATCH, LCNT, LMIN, LMOUT and LDONE through a queue register bound to a live bed: a
command whose fields stand enters the scheduler with its operands read, seals the interval and goes on, or stalls where the bed or the
scheduler has 64; another binding, or a bed that is gone, raises 0x03. LMREL enters its release and is deferred. LMREQ gives 1 above the
quota, 2 for a malformed request, and else the handle of a bed of n free plots that the first slice that can grants, of the one named or for FFH of
the neighbour, its die and the other dies in turn; 3 where no slice has the plots and a bed free, 4 where one has but cannot convert them (R240 to
R254). The model's choice: the number of the bed (log 97). -/
def Obligations.LoamInstructionEntersItsCommand : Prop :=
  (∀ (s : State) (i : Instr) (o : Ops) (op : LoamOp) (m : Option Field) (rs : List Region) (h : BitVec 24) (sl bed : Nat),
    s.targetOf o = some (.loam h) → s.bedOf (s.ctxOf s.cur) h = some (sl, bed) →
    ((loamOf s i = some (o, op, m) ∧ rs = []) ∨
      loamMove s ((s.sliceAt sl).beds.get ⟨0, 0, 0, [], [], false⟩ bed).lanes i = some (o, op, m, rs)) →
    (loamRoom s sl bed → nextStands s →
      exec i s = .next (onward ((entersCommand s i (.loam ⟨h, op, m⟩) rs ⟨none, none⟩).sealInterval s.team.gang))) ∧
    (64 ≤ (s.coreAt s.gang.core).cmds.length → exec i s = .next (stalls s)) ∧
    (64 ≤ (s.bedQueue sl bed).length → (s.coreAt s.gang.core).cmds.length < 64 → exec i s = .next (stallsThere s))) ∧
  (∀ (s : State) (o : Ops), o.b = .reg 0 → (∀ h, s.targetOf o = some (.loam h) → s.bedOf (s.ctxOf s.cur) h = none) →
    ∀ i ∈ [Instr.ladd o, .lsub o, .lmul o, .llog o, .lcmp o, .lsel o, .lmm o, .lshf o, .lred o, .lmatch o, .lcnt o, .lmin o, .lmout o, .ldone o],
      exec i s = .next (ends s .illegalRegister 0 0 0)) ∧
  (∀ (s : State) (o : Ops),
    ((s.coreAt s.gang.core).cmds.length < 64 → nextStands s →
      exec (.lmrel o) s = .next (onward (defers (entersCommand s (.lmrel o)
        (.loam ⟨(s.regs.source o.a).setWidth 24, .release s.cur s.hub.nextCmd, none⟩) [] ⟨none, none⟩) o.d.num (.lmrel s.hub.nextCmd none)))) ∧
    (64 ≤ (s.coreAt s.gang.core).cmds.length → exec (.lmrel o) s = .next (stalls s))) ∧
  (∀ (s : State) (o : Ops), nextStands s →
    let x := s.regs.source o.a
    let n := (x.extractLsb' 0 4).toNat
    let sl := (x.extractLsb' 8 8).toNat
    let quota := (s.ctxAt (s.ctxOf s.cur)).quota
    let malformed := x.extractLsb' 16 48 ≠ 0 ∨ x.getLsbD 4 = true ∨ x.getLsbD 5 = true ∨ x.getLsbD 6 = true ∨ x.getLsbD 7 = true ∨
      n = 0 ∨ 8 < n ∨ (96 ≤ sl ∧ sl ≤ 254)
    (quota < n → exec (.lmreq o) s = .next (onward (deferring s o.d.num 1))) ∧
    (n ≤ quota → malformed → exec (.lmreq o) s = .next (onward (deferring s o.d.num 2))) ∧
    let near := s.gang.core / 2
    let order : List Nat := if sl = 255 then
        near :: ((List.range 24).map (fun i => 24 * (near / 24) + i)).filter (fun k => k ≠ near) ++ (List.range 96).filter (fun k => k / 24 ≠ near / 24)
      else [sl]
    let has (k : Nat) : Bool := ((s.sliceAt k).grantable n).isSome
    let first := order.find? (fun k => has k && !s.refusesPlots k n)
    (∀ k ps, n ≤ quota → ¬malformed → first = some k → (s.sliceAt k).grantable n = some ps →
      exec (.lmreq o) s = .next (onward (deferring (s.grantBed k (s.ctxOf s.cur) ps).1 o.d.num
        (BitVec.ofNat 32 (16384 * ps.length) ++ ((0 : BitVec 8) ++ ((s.sliceAt k).seq ++ ((1 : BitVec 1) ++ ((0 : BitVec 5) ++
          (BitVec.ofNat 7 k ++ BitVec.ofNat 3 (s.sliceAt k).freeBed))))))))) ∧
    (n ≤ quota → ¬malformed → first = none →
      exec (.lmreq o) s = .next (onward (deferring s o.d.num (if order.any has then 4 else 3)))))

open Sys2Proof Sys2Proof.Machine Sys2Proof.Claims in
/-- OPINST on a slot of the context that is free installs its operator: after a fence FENCE.REL.dev the matrix is read, the plots leave cache
mode, the operator stands and the result is deferred until the end of the installation; code 1 is no slot of the context, 2 a slot in use,
4 an operator that does not fit, 5 plots that cannot be converted; the slot is installing until the code is written; misaligned, it raises 0x14.
OPSEAL and OPUNINST are deferred until their slot's turn. OPSTAT gives the words of R235, or consumes a poisoned status word, and OPQ gives an element
of an operator that is not sealed, or a code (R175, R222, R232 to R236, R361, R403). The model's choices: when plots cannot be converted (log 14), the
order of a team's instructions on one slot (log 63), the address 0 of a consumed status word (log 85), and a slot no longer valid where its OPINST is
reissued (log 93). -/
def Obligations.OperatorInstructionsActOnTheirSlot : Prop :=
  ∀ (s : State) (o : Ops), s.team.deferred = [] → nextStands s →
    let a := s.regs.source o.a
    let named := s.handleFor (s.ctxOf s.cur) a
    let va := s.sreg o.b.num.toNat
    let w := s.sreg (o.b.num.toNat + 1)
    let x : OpShape := ⟨(w.extractLsb' 0 12).toNat + 1, (w.extractLsb' 12 12).toNat + 1, (w.extractLsb' 24 6).toNat + 1, (w.extractLsb' 32 32).toNat⟩
    let fo := (ElemType.ofCode o.var).getD .f32
    let aligned := va.toNat % o.ty.size = 0 ∧ x.stride % o.ty.size = 0
    (¬aligned → exec (.opinst o) s = .next (ends s .misalignment va 0x01 va)) ∧
    let coded (t : State) (sl n : Nat) (c : DWord) : Out := .next (onward (defers
      (t.mapSlot sl n (fun q => { q with installing := true, installer := none })) o.d.num (.opinst sl n c)))
    (aligned → named = none → s.installBy s.cur = none → exec (.opinst o) s = .next (onward (deferring s o.d.num 1))) ∧
    (∀ sl n, aligned → named = none → s.installBy s.cur = some (sl, n) → exec (.opinst o) s = coded s sl n 1) ∧
    (∀ sl n, aligned → named = some (sl, n) →
      let q := (s.sliceAt sl).slot n
      (q.installer ≠ some s.cur → q.installing = true ∨ q.op.isSome = true → exec (.opinst o) s = .next (onward (deferring s o.d.num 2))) ∧
      (q.installer = none → q.installing = false → q.op = none →
        (q.fits o.ty.size fo.size x = false → exec (.opinst o) s = coded s sl n 4) ∧
        (q.fits o.ty.size fo.size x = true → s.refusesPlots sl (plotsOf q.plots).length = true → exec (.opinst o) s = coded s sl n 5) ∧
        (∀ s1 s2 m bad t, q.fits o.ty.size fo.size x = true → s.refusesPlots sl (plotsOf q.plots).length = false →
          ((s.wakeSlice sl).mapSlot sl n (fun q => { q with installing := true, installer := some s.cur })).fence 1 4 = .ok s1 →
          s1.readMatrix va o.ty.size x = .ok (s2, m, bad) →
          t = (s2.setPlots sl (plotsOf q.plots) .operator).mapSlot sl n (fun q => { q with
            op := some ⟨o.ty, fo, x.m, x.n, x.s, m, bad, false, [], [], []⟩ }) → nextStands t → exec (.opinst o) s = coded t sl n 0))) ∧
    exec (.opseal o) s = .next (onward (defers s o.d.num (.opseal a))) ∧
    exec (.opuninst o) s = .next (onward (defers s o.d.num (.opuninst a))) ∧
    (let v := s.regs.source o.b
     (s.operatorFor a = none → exec (.opstat o) s = .next (onward (deferring s o.d.num 0))) ∧
     (∀ sl n p, s.operatorFor a = some (sl, n, p) →
      let sealed : BitVec 1 := if p.isSealed then 1 else 0
      (p.s ≤ v.toNat → exec (.opstat o) s = .next (onward (deferring s o.d.num
        ((1 : BitVec 1) ++ (sealed ++ ((1 : BitVec 2) ++ (0 : BitVec 60))))))) ∧
      (v.toNat < p.s → (∃ b ∈ (p.resultSlot v.toNat).bad, p.qstride - 8 ≤ b) → exec (.opstat o) s = .next (s.consume s.cur s.regs.pc 0 0)) ∧
      (v.toNat < p.s → (∀ b ∈ (p.resultSlot v.toNat).bad, b < p.qstride - 8) → exec (.opstat o) s = .next (onward (deferring s o.d.num
        ((1 : BitVec 1) ++ (sealed ++ ((if 0 < snapshotsOf (s.sliceAt sl) n v.toNat then 1 else 0 : BitVec 1) ++ ((0 : BitVec 1) ++
          (BitVec.ofNat 12 (p.filledElements v.toNat) ++ (BitVec.ofNat 16 (p.applySlot v.toNat).overwrites ++
            BitVec.ofNat 32 (p.resultSlot v.toNat).gen.toNat))))))))))) ∧
    (let row := ((s.regs.source o.b).extractLsb' 32 32).toNat
     let col := ((s.regs.source o.b).extractLsb' 0 32).toNat
     let code (c : BitVec 8) : DWord := c ++ (0 : BitVec 56)
     (named = none → exec (.opq o) s = .next (onward (deferring s o.d.num (code 1)))) ∧
     (∀ sl n, named = some (sl, n) → ((s.sliceAt sl).slot n).installed = none → exec (.opq o) s = .next (onward (deferring s o.d.num (code 3)))) ∧
     (∀ sl n p, named = some (sl, n) → ((s.sliceAt sl).slot n).installed = some p →
      (p.isSealed = true → exec (.opq o) s = .next (onward (deferring s o.d.num (code 6)))) ∧
      (p.isSealed = false → (p.m ≤ row ∨ p.n ≤ col) → exec (.opq o) s = .next (onward (deferring s o.d.num (code 7)))) ∧
      (p.isSealed = false → row < p.m → col < p.n → exec (.opq o) s = .next (onward (deferring s o.d.num
        (BitVec.ofNat 64 (leNat (p.matrix.read ((row * p.n + col) * p.fmtIn.size) p.fmtIn.size) % 2 ^ 16)))))))

open Sys2Proof Sys2Proof.Machine Sys2Proof.Claims in
/-- The privileged instructions that a privileged context executes. CTXSAVE of a resident gang that the context may act on is deferred until
the gang is saved; its result is 1 for another gang, 2 while a save of it is in progress, 3 for a misaligned area, and with .sz the size
of the image. CTXRST gives the code of the image at its address. RESUME releases what a fault id holds, an ECALL's team going on with the
value s(b) and the team of a store or atomic standing ready to issue it again, with code 1 for an id that holds nothing and 2 for a function out of reach. TLBINV, after FENCE.REL.dev, requests its
invalidation and is deferred until it completes, with code 1 for a set out of reach (R328, R361, R362, R366, R367, R370). The model's
choices: the order of CTXSAVE's codes (log 48), what CTXRST accepts (log 49), and the size and layout of an image (log 11). -/
def Obligations.PrivilegedInstructionsAct : Prop :=
  ∀ (s : State) (o : Ops), nextStands s →
    let a := s.regs.source o.a
    let b := s.regs.source o.b
    let code (x : DWord) : Out := .next (onward (deferring s o.d.num x))
    (let mine (g : Nat) : Prop := mayActOn s (s.fnOf (s.dispatchAt (s.gangAt g).dispatch).ctx)
     (s.gangNamed a = none → exec (.ctxsave o) s = code 1) ∧
     (∀ g, s.gangNamed a = some g →
      (¬mine g → exec (.ctxsave o) s = code 1) ∧
      (mine g → o.var.getLsbD 0 = true → exec (.ctxsave o) s = code (BitVec.ofNat 64 (s.gangAt g).imageSize)) ∧
      (mine g → o.var.getLsbD 0 = false → s.saveInProgress g = true → exec (.ctxsave o) s = code 2) ∧
      (mine g → o.var.getLsbD 0 = false → s.saveInProgress g = false →
        (b.toNat % 4096 ≠ 0 → exec (.ctxsave o) s = code 3) ∧
        (b.toNat % 4096 = 0 → exec (.ctxsave o) s = .next (onward (defers s o.d.num (.ctxsave (BitVec.ofNat 64 g) b))))))) ∧
    (∀ s1 n, s.acceptImage (fun k => s.readImage s.cur a.toNat k) = .ok (s1, n) → nextStands s1 →
      exec (.ctxrst o) s = .next (onward (deferring s1 o.d.num (BitVec.ofNat 64 n)))) ∧
    (let fn := (a.extractLsb' 32 6).toNat
     let id := (a.extractLsb' 0 32).toNat
     let found := s.hub.held.find? (fun x => x.fn = fn && x.id = id)
     (¬mayActOn s fn → exec (.resume o) s = code 2) ∧
     (mayActOn s fn → found = none → exec (.resume o) s = code 1) ∧
     (mayActOn s fn → found ≠ none → exec (.resume o) s =
       .next ((onward (deferring s o.d.num 0)).resumeId fn id (o.var.getLsbD 0) b).1) ∧
     (∀ x u d, mayActOn s fn → found = some x → o.var.getLsbD 0 = false → x.holds = [.team u] → u ≠ s.cur →
       (s.teamAt u).status = .parked fn id .environmentCall (.ecall d) → ((s.teamAt u).regs.pc + 8).toNat ≠ windowBase →
       ∃ t, exec (.resume o) s = .next t ∧ (t.teamAt u).status = .ready ∧ (t.teamAt u).regs.pc = (s.teamAt u).regs.pc + 8 ∧
         (t.teamAt u).regs.sreg d = (if d = 0 then 0 else b) ∧ t.team = (onward (deferring s o.d.num 0)).team) ∧
     (∀ x u c, mayActOn s fn → found = some x → o.var.getLsbD 0 = false → x.holds = [.team u] → u ≠ s.cur →
       (s.teamAt u).status = .parked fn id c .reissue →
       ∃ t, exec (.resume o) s = .next t ∧ t.teamAt u = { s.teamAt u with status := .ready } ∧
         t.hub.held = s.hub.held.filter (fun y => !(y.fn = fn && y.id = id)) ∧ t.team = (onward (deferring s o.d.num 0)).team)) ∧
    (∀ s1, s.fence 1 4 = .ok s1 → nextStands s1 →
      let a := s1.regs.source o.a
      let b := s1.regs.source o.b
      let ask (scope : Option (Nat × Option (Nat × Nat))) : State := onward ((defers s1 o.d.num (.tlbinv s1.hub.nextInv)).mapHub (fun h =>
        { h with invs := h.invs ++ [⟨h.nextInv, scope, .team s1.cur⟩], nextInv := h.nextInv + 1 }))
      let fin (x : DWord) : State := onward (deferring s1 o.d.num x)
      let ctxB := (b.extractLsb' 48 16).toNat
      let ctxA := (a.extractLsb' 0 16).toNat
      let len := (b.extractLsb' 0 48).toNat
      (o.var = 0 → mayActOn s1 (s1.fnOf ctxB) → len ≠ 0 → exec (.tlbinv o) s = .next (ask (some (ctxB, some (a.toNat, len))))) ∧
      (o.var = 0 → mayActOn s1 (s1.fnOf ctxB) → len = 0 → exec (.tlbinv o) s = .next (fin 0)) ∧
      (o.var = 0 → ¬mayActOn s1 (s1.fnOf ctxB) → exec (.tlbinv o) s = .next (fin 1)) ∧
      (o.var = 1 → mayActOn s1 (s1.fnOf ctxA) → exec (.tlbinv o) s = .next (ask (some (ctxA, none)))) ∧
      (o.var = 1 → ¬mayActOn s1 (s1.fnOf ctxA) → exec (.tlbinv o) s = .next (fin 1)) ∧
      (o.var = 2 → s1.fnOf (s1.ctxOf s1.cur) = 0 → exec (.tlbinv o) s = .next (ask none)) ∧
      (o.var = 2 → s1.fnOf (s1.ctxOf s1.cur) ≠ 0 → exec (.tlbinv o) s = .next (fin 1)))

/-! ### Steps of the other agents: teams, gangs and host queues -/

namespace Sys2Proof.Claims
open Sys2Proof.Machine

/-- A deferred instruction of a team completed: its destination takes the result, is no longer poisoned, and the instruction is deferred no more
(R175, R361). -/
def delivered (s : State) (u i d : Nat) (x : DWord) : State :=
  s.mapTeam u (fun t => { t with
    deferred := t.deferred.eraseIdx i
    regs := t.regs.setS d x
    bad := t.bad.filter (fun b => !scal d b) })

/-- A wait of a team ended with a result: the team is ready at its next address (R201, R202, R347). -/
def finished (s : State) (u d : Nat) (x : DWord) : State :=
  s.mapTeam u (fun t => { t with
    regs := { t.regs.setS d x with pc := t.regs.pc + 8 }
    windows := t.windows.map (fun w => { w with left := w.left - 1 })
    status := .ready
    stalled := none
    stuck := none
    bad := t.bad.filter (fun b => !scal d b) })

/-- A team whose wait is given up at its boundary: a BARSYNC keeps its token for its stream and address (R51, R348). -/
def unwaited (t : Team) : Team :=
  match t.status with
  | .waiting w =>
    match w.kind with
    | .barrier b tok true _ _ => { t with status := .ready, held := t.held.filter (fun x => x.inHandler ≠ t.h) ++ [⟨t.h, b, tok, t.regs.pc⟩] }
    | _ => { t with status := .ready }
  | _ => t

/-- A team that stands at an instruction boundary and is not stopped: it is ready, or waits (R51, R359). -/
def bounded (t : Team) : Prop := (t.status = .ready ∨ ∃ w, t.status = .waiting w) ∧ t.stop = false

/-- The address after a team's instruction does not stand in the local window. -/
def nextStandsOf (s : State) (u : Nat) : Prop := ((s.teamAt u).regs.pc + 8).toNat ≠ windowBase

/-- The user interrupt that a team takes at its boundary, the lowest enabled pending source (R106, R363). -/
def deliverable (t : Team) (code : BitVec 8) (bit : BitVec 11) : Prop :=
  bounded t ∧ t.h = false ∧ t.regs.uhandler ≠ 0 ∧ t.regs.uien.getLsbD 3 = true ∧
    (let on (n : Nat) : Prop := t.regs.uien.getLsbD (8 + n) = true ∧ t.regs.uien.getLsbD n = true
     (on 0 ∧ code = 0x60 ∧ bit = 0x100) ∨ (¬on 0 ∧ on 1 ∧ code = 0x61 ∧ bit = 0x200) ∨
      (¬on 0 ∧ ¬on 1 ∧ on 2 ∧ code = 0x62 ∧ bit = 0x400))

/-- A blocking wait has a limit, and a try-wait its hint (R48, R50). -/
def hintOf (k : WaitKind) : Option Nat :=
  match k with
  | .word _ _ _ _ h _ => h
  | .barrier _ _ _ h _ => h
  | _ => none

end Sys2Proof.Claims

open Sys2Proof Sys2Proof.Machine Sys2Proof.Claims in
/-- The steps that concern one team: a refused word ends the dispatch; the result of an open window arrives or its fault is recorded, after those
of the earlier windows, and an access behind an earlier fault on the same byte waits (log 80); a deferred destination is written, a seal or removal
with its code, and that of an OPINST with the end of the installation; a load stream reads one vector ahead, of at most eight; the starvation timer forces priority at 224; a user interrupt enters
the handler and a charged cause is taken at a boundary, where a wait is given up and the command, with later loam commands of its team for its bed,
is dropped (R39, R51, R71, R74, R106, R110, R205, R251, R259, R348, R359 to R363, R373, R403). The model's choices: TVAL of a cause that names no
address (log 6), and that a delivery leaves UVAL as it is (log 81). -/
def Obligations.TeamStepsActOnTheirTeam : Prop :=
  (∀ (s : State) (cause : Cause) (word : DWord), exec (.illegalInstruction cause word) s = .next (ends s cause word 0 word)) ∧
  (∀ (s : State) (u i : Nat) (w : Window) (p : Pending), (s.gangAt (s.teamAt u).gang).state = .resident →
    (s.teamAt u).windows[i]? = some w → w.res = .pending p →
    (∀ j < i, ∀ v, (s.teamAt u).windows[j]? = some v → ∀ q, v.res ≠ .pending q) →
    ((s.teamAt u).faultedFor (s.gangAt (s.teamAt u).gang).tw i (p.ranges (s.gangAt (s.teamAt u).gang).tw) ≠ none →
      exec (.longLatencyResultArrival u i) s = .next s) ∧
    ((s.teamAt u).faultedFor (s.gangAt (s.teamAt u).gang).tw i (p.ranges (s.gangAt (s.teamAt u).gang).tw) = none →
    (∀ s1 ws fl, s.performPending u p = .ok (s1, ws, fl) → exec (.longLatencyResultArrival u i) s =
      .next (s1.mapTeam u (fun t => { t with windows := t.windows.set i { w with res := .ready ws fl } }))) ∧
    (∀ c va acc s1, s.performPending u p = .error (.trap c va acc true, s1) → exec (.longLatencyResultArrival u i) s =
      .next (s1.mapTeam u (fun t => { t with windows := t.windows.set i { w with res := .faulted p c va } }))))) ∧
  (∀ (s : State) (u i : Nat) (k : Deferred), (s.teamAt u).deferred[i]? = some k → (∀ c, (s.teamAt u).status ≠ .ended c) →
    (∀ x, k.op = .value x → exec (.deferredDestinationWrite u i) s = .next (delivered s u i k.d x)) ∧
    (∀ sl n x t, k.op = .opinst sl n x → t = s.endInstall sl n → t.teams = s.teams →
      exec (.deferredDestinationWrite u i) s = .next (delivered t u i k.d x)) ∧
    (∀ id x, k.op = .lmrel id (some x) → exec (.deferredDestinationWrite u i) s = .next (delivered s u i k.d x)) ∧
    (∀ id, k.op = .lmrel id none → exec (.deferredDestinationWrite u i) s = .next s) ∧
    (∀ h sl n, k.op = .opseal h → s.handleFor (s.ctxOf u) h = some (sl, n) → ((s.sliceAt sl).slot n).installing = false →
      (s.teamAt u).slotBusy i sl n = false →
      (((s.sliceAt sl).slot n).op = none → exec (.deferredDestinationWrite u i) s = .next (delivered s u i k.d 3)) ∧
      (((s.sliceAt sl).slot n).op ≠ none → exec (.deferredDestinationWrite u i) s = .next (delivered (s.mapSlot sl n (fun q =>
        { q with op := q.op.map (fun o => { o with isSealed := true }) })) u i k.d 0))) ∧
    (∀ h sl n t, k.op = .opuninst h → s.handleFor (s.ctxOf u) h = some (sl, n) → ((s.sliceAt sl).slot n).installing = false →
      (s.teamAt u).slotBusy i sl n = false → ((s.sliceAt sl).slot n).op ≠ none → t = s.removeOperator sl n → t.teams = s.teams →
      exec (.deferredDestinationWrite u i) s = .next (delivered t u i k.d 0)) ∧
    (∀ h, k.op = .opseal h ∨ k.op = .opuninst h → s.handleFor (s.ctxOf u) h = none →
      exec (.deferredDestinationWrite u i) s = .next (delivered s u i k.d 1))) ∧
  (∀ (s s1 : State) (u q : Nat) (st : Stream) (x : List Word32), (s.teamAt u).regs.q.find q = some (.load st) →
    (s.gangAt (s.teamAt u).gang).state = .resident →
    let next : Stream := { st with pos := st.pos + st.ahead.length, ahead := [] }
    (8 ≤ st.ahead.length ∨ next.done = true → exec (.loadStreamReadahead u q) s = .next s) ∧
    (st.ahead.length < 8 → next.done = false → s.streamRead u next = .ok (s1, x) →
      exec (.loadStreamReadahead u q) s = .next (s1.mapTeam u (fun t =>
        { t with regs := { t.regs with q := t.regs.q.set q (.load { st with ahead := st.ahead ++ [x] }) } })))) ∧
  (∀ (s : State) (u : Nat), (s.teamAt u).isReady = true → (s.teamAt u).h = false →
    (224 ≤ (s.teamAt u).starve → exec (.starvationTimerExpiry u) s = .next (s.mapTeam u (fun t => { t with forced := true }))) ∧
    ((s.teamAt u).starve < 224 → exec (.starvationTimerExpiry u) s = .next s)) ∧
  (∀ (s s1 s2 : State) (u : Nat) (code : BitVec 8) (bit : BitVec 11), deliverable (s.teamAt u) code bit → (s.teamAt u).async = [] →
    (s.gangAt (s.teamAt u).gang).heldFault = none → s.settle u = .ok s1 → s1.arriveQuiet u = .ok s2 →
    exec (.userInterruptDelivery u) s = .next (s2.mapTeam u (fun t => entered (unwaited t) true 0 code t.regs.pc bit))) ∧
  (∀ (s : State) (u : Nat) (a : AsyncCause) (rest : List AsyncCause), bounded (s.teamAt u) →
    (s.gangAt (s.teamAt u).gang).state = .resident → (s.gangAt (s.teamAt u).gang).heldFault = none → (s.teamAt u).async = a :: rest →
    let s1 := s.mapTeam u (fun t => { unwaited t with async := rest })
    let dropped := s1.dropStopped a.order
    (a.cause = .errorConsumed → exec (.engineFaultCharge u) s = .next (dropped.consume u a.pc a.value 0x21)) ∧
    (a.cause = .emulation → exec (.engineFaultCharge u) s =
      .next (s1.park u .emulation .emulation a.pc a.value a.access a.value (.team u))) ∧
    (a.cause ≠ .errorConsumed → a.cause ≠ .emulation →
      (a.holds = none → exec (.engineFaultCharge u) s = .next (dropped.endTeam u a.cause a.pc a.value a.access a.value)) ∧
      (∀ h, a.holds = some h → exec (.engineFaultCharge u) s =
        .next ((s1.park u a.cause .goOn a.pc a.value a.access a.value (.team u)).addHold u h))))

open Sys2Proof Sys2Proof.Machine Sys2Proof.Claims in
/-- The time limits of waits. A blocking wait past half its limit sets UIEN.WDWP once, and past its limit ends the dispatch with 0x21; a wait
on a word is evaluated until its limit or hint has passed, the tick of expiry included, and completes with 1 where its condition holds; a
try-wait past its hint returns 0, or for a barrier the phase without done; none acts before its time (R50, R201, R202, R347, R353). The
model's choices: a wait on a word is evaluated in turns of the agenda, and once more at its end (log 22). -/
def Obligations.TimeLimitsEndWaits : Prop :=
  ∀ (s : State) (u : Nat) (w : Wait), (s.teamAt u).status = .waiting w →
    let limit := (s.queueAt (s.dispatchOf u).queue).limit
    let expired (t : State) : State := t.endTeam u .watchdogExpiry (t.teamAt u).regs.pc 0 0 0
    (hintOf w.kind = none → w.half = false → limit < 2 * w.ticks → exec (.watchdogHalf u) s = .next (s.mapTeam u (fun t =>
      { t with
        status := .waiting { w with half := true }
        regs := { t.regs with uien := t.regs.uien ||| 0x200 }
        fresh := (s.cycles, (if t.fresh.1 = s.cycles then t.fresh.2 else 0) ||| 0x200) }))) ∧
    (w.half = true ∨ 2 * w.ticks ≤ limit → exec (.watchdogHalf u) s = .next s) ∧
    (hintOf w.kind = none → w.ticks < limit → exec (.watchdogExpiry u) s = .next s) ∧
    (hintOf w.kind = none → (∀ ea c ty v h d, w.kind ≠ .word ea c ty v h d) →
      (w.ticks ≤ limit → exec (.watchdogExpiry u) s = .next s) ∧ (limit < w.ticks → exec (.watchdogExpiry u) s = .next (expired s))) ∧
    (∀ ea c ty v h d s1 x, w.kind = .word ea c ty v h d → s.waitWord u ea ty.size = .ok (s1, x) → nextStandsOf s1 u →
      (h.getD limit < w.ticks → exec (.waitaEvaluation u) s = .next s) ∧
      (condHolds c ty x v.toNat = true →
        (w.ticks ≤ h.getD limit → exec (.waitaEvaluation u) s = .next (finished s1 u d 1)) ∧
        (h = none → limit ≤ w.ticks → exec (.watchdogExpiry u) s = .next (finished s1 u d 1)) ∧
        (∀ n, h = some n → n ≤ w.ticks → exec (.trywaitTimeout u) s = .next (finished s1 u d 1))) ∧
      (condHolds c ty x v.toNat = false →
        (w.ticks ≤ h.getD limit → exec (.waitaEvaluation u) s = .next s1) ∧
        (h = none → w.ticks = limit → exec (.watchdogExpiry u) s = .next s1) ∧
        (h = none → limit < w.ticks → exec (.watchdogExpiry u) s = .next (expired s1)) ∧
        (∀ n, h = some n → (w.ticks < n → exec (.trywaitTimeout u) s = .next s) ∧
          (w.ticks = n → exec (.trywaitTimeout u) s = .next s1) ∧ (n < w.ticks → exec (.trywaitTimeout u) s = .next (finished s1 u d 0))))) ∧
    (∀ b tok sync n d, w.kind = .barrier b tok sync (some n) d → nextStandsOf s u →
      (n < w.ticks → exec (.bartrywaitTimeout u) s =
        .next (finished s u d (waitWord false false (s.barrier (s.teamAt u).gang b).phase))) ∧
      (w.ticks ≤ n → exec (.bartrywaitTimeout u) s = .next s))

namespace Sys2Proof.Claims
open Sys2Proof.Machine

/-- The gang that an admission starts: in its place of the dispatch, its teams at the dispatch's entry with what R24 gives them. -/
def started (s t : State) (d core : Nat) (shape : Shape) (blocks : List (Nat × Nat)) : Prop :=
  let x := s.dispatchAt d
  let g := s.hub.nextGang
  let k := t.gangAt g
  k.state = .resident ∧ k.dispatch = d ∧ k.glin = x.next ∧ k.core = core ∧ k.nteams = shape.nteams ∧ k.tw = shape.tw ∧ k.vregs = shape.vregs ∧
    k.scratch = shape.scratch ∧ k.blocks = blocks ∧ k.x = x.next % x.dimX ∧ k.y = x.next / x.dimX % x.dimY ∧ k.z = x.next / x.dimX / x.dimY ∧
    (t.barrier g 0).expected = shape.nteams ∧ t.hub.nextGang = g + 1 ∧ (t.dispatchAt d).next = x.next + 1 ∧ (t.dispatchAt d).live = x.live + 1 ∧
    (∀ i, i < shape.nteams →
      let m := t.teamAt (16 * g + i)
      m.status = .ready ∧ m.gang = g ∧ m.teamid = i ∧ m.regs.pc = x.entry ∧ m.regs.sreg 1 = x.arg ∧ m.regs.sreg 2 = x.joinVA ∧
        m.regs.em = laneMask shape.tw ∧ m.regs.v = [] ∧ m.regs.k = [] ∧ m.regs.q = [] ∧ m.regs.fflags = 0 ∧ m.h = false)

/-- The intensity counters of a dispatch `d` after the retirement of its gang `g` (R354): the first 64 gangs that retire add their figures, and
the 64th marks the dispatch compute-bound (1) where a ≥ 8·m, else memory-bound (2); continuations are not counted. -/
def tallied (g : Gang) (d d' : Dispatch) : Prop :=
  (d.cont = false → d.retired < 64 → d'.work = d.work + BitVec.ofNat 64 g.work ∧ d'.lines = d.lines + BitVec.ofNat 64 g.lines) ∧
  (d.cont = false → d.retired = 63 → d'.mark = if 8 * d'.lines.toNat ≤ d'.work.toNat then 1 else 2) ∧
  (d.cont = true ∨ d.retired ≠ 63 → d'.mark = d.mark) ∧ (d.cont = true ∨ 64 ≤ d.retired → d'.work = d.work ∧ d'.lines = d.lines)

end Sys2Proof.Claims

open Sys2Proof Sys2Proof.Machine Sys2Proof.Claims in
/-- The life of gangs. Admission starts the next gang of a dispatch, in ascending linear index, on the core that placement gives, its teams
with the registers of R24, once the blocks that it takes are claimed from the core's L1; a gang whose teams have all exited, with every
command done, retires once its mapped scratchpad is written back, and is counted in its dispatch's intensity counters, which the 64th marks; compaction moves blocks where a waiting
admission needs it, and keeps each gang's blocks in order and size; a gang whose teams stand at boundaries is saved, and an image is
restored where a core has room; a mailbox request takes the next unplaced index or DONE (R24 to R26, R29, R33, R35, R40, R46, R100, R101,
R172, R272, R332, R354, R368). The model's choices: which moves a compaction makes (log 50), the place of shadow blocks (log 47), and the form of
images (log 11). -/
def Obligations.GangsStartMoveAndRetire : Prop :=
  (∀ (s : State) (d core : Nat) (shape : Shape) (blocks : List (Nat × Nat)),
    let x := s.dispatchAt d
    let slice := s.sliceFor x (x.next % x.dimX) (x.next / x.dimX % x.dimY) (x.next / x.dimX / x.dimY)
    let place := s.placement slice x.mark (fun c => s.roomOn c shape x.rollback (s.mappingsFor x.ctx d x.next).length)
    x.valid = true → x.failed = none → x.next < x.dimX * x.dimY * x.dimZ → s.restoreWaits d = false → shapeOf x.shape = some shape →
    (place = none → exec (.gangAdmission d) s = .next s) ∧
    (∀ s1, place = some (core, blocks) → s.claimFor core x.ctx d x.next shape.scratch blocks = .ok s1 →
      exec (.gangAdmission d) s = .next (s1.startGang d x.next core shape blocks) ∧
      (s1.dispatchAt d = x → s1.mappingsFor x.ctx d x.next = [] → x.rollback = false → shape.nteams ≤ 16 →
        started s1 (s1.startGang d x.next core shape blocks) d core shape blocks)) ∧
    (∀ r s1, place = some (core, blocks) → s.claimFor core x.ctx d x.next shape.scratch blocks = .error (.wait r, s1) →
      exec (.gangAdmission d) s = .next (s1.request r))) ∧
  (∀ (s : State) (g : Nat),
    (s.mayRetire g = false → exec (.gangRetirement g) s = .next s) ∧
    (∀ r s0, s.mayRetire g = true → s.unmapGang g = .error (.wait r, s0) → exec (.gangRetirement g) s = .next (s.request r)) ∧
    (∀ s0, s.mayRetire g = true → s.unmapGang g = .ok s0 →
      ∃ t, exec (.gangRetirement g) s = .next t ∧ t.mem = s0.mem ∧ (t.gangAt g).state = .retired ∧ (t.gangAt g).blocks = [] ∧
      (t.gangAt g).barriers = [] ∧ (t.dispatchAt (s.gangAt g).dispatch).retired = (s0.dispatchAt (s.gangAt g).dispatch).retired + 1 ∧
      (t.dispatchAt (s.gangAt g).dispatch).live = (s0.dispatchAt (s.gangAt g).dispatch).live - 1 ∧
      tallied (s.gangAt g) (s0.dispatchAt (s.gangAt g).dispatch) (t.dispatchAt (s.gangAt g).dispatch))) ∧
  (∀ (s : State) (core : Nat),
    (s.waitingFor core = [] ∨ s.compaction core = none → exec (.blockCompaction core) s = .next s) ∧
    (∀ ms s1, s.compaction core = some ms → s.claimBlocks core (ms.map (fun m => (m.2.2.1, m.2.2.2))) = .ok s1 →
      ∃ t, exec (.blockCompaction core) s = .next t ∧ t.mem = s1.mem ∧ t.teams = s1.teams ∧
        (∀ g, (t.gangAt g).blocks.map (fun b => b.2) = (s1.gangAt g).blocks.map (fun b => b.2))) ∧
    (∀ ms, s.compaction core = some ms → blocksApart (s.layout core ms) = true ∧
      ∃ w ∈ s.waitingFor core, (grantBlocks (s.layout core ms) w).isSome = true)) ∧
  (∀ (s t : State) (g : Nat),
    (s.mayPreempt g = false → exec (.preemption g) s = .next s) ∧
    (s.mayPreempt g = true → s.saveGang g true = .ok t →
      exec (.preemption g) s = .next t ∧ (t.gangAt g).state = .saved ∧ (t.gangAt g).blocks = [])) ∧
  (∀ (s : State) (id core : Nat) (i : GangImage) (blocks : List (Nat × Nat)),
    s.hub.images.find? (fun k => k.id = id && (k.byScheduler || k.accepted)) = some i → (s.gangAt i.gang).state = .saved →
    s.edgesPending i = false →
    let x := s.gangAt i.gang
    let d := s.dispatchAt x.dispatch
    s.placement (s.sliceFor d x.x x.y x.z) d.mark (s.restoreRoom i) = some (core, blocks) →
    (∀ s1, s.claimFor core d.ctx x.dispatch x.glin x.scratch blocks = .ok s1 → exec (.gangRestore id) s = .next (s1.restoreGang i core blocks)) ∧
    (∀ r s1, s.claimFor core d.ctx x.dispatch x.glin x.scratch blocks = .error (.wait r, s1) →
      exec (.gangRestore id) s = .next (s1.request r))) ∧
  (∀ (s s1 : State) (area : DWord) (ctx n : Nat), s.acceptImage (fun k => s.cpRead ctx area.toNat k) = .ok (s1, n) →
    exec (.mgmtGangRestore area ctx) s = .next s1) ∧
  (∀ (s : State) (g : Nat) (f : FetchRequest) (rest : List FetchRequest), (s.gangAt g).fetches = f :: rest →
    (s.gangAt g).state = .resident →
    let d := s.dispatchAt f.dispatch
    let i := d.next
    let s1 := s.mapGang g (fun k => { k with fetches := rest })
    (d.valid = true → d.failed = none → i < d.dimX * d.dimY * d.dimZ → exec (.fetchwMailboxWrite g) s =
      .next (((s1.mapDispatch f.dispatch (fun y => { y with next := i + 1, unreported := y.unreported ++ [i] })).mapGang g
        (fun k => { k with withdrawn := k.withdrawn.set f.dispatch (i :: k.withdrawn.get [] f.dispatch) })).mapGang g (fun k => k.store f.mailbox
          (leBytes 4 (i % d.dimX) ++ leBytes 4 (i / d.dimX % d.dimY) ++ leBytes 4 (i / d.dimX / d.dimY) ++ leBytes 4 1)))) ∧
    (d.valid = false ∨ d.failed ≠ none ∨ d.dimX * d.dimY * d.dimZ ≤ i →
      exec (.fetchwMailboxWrite g) s = .next (s1.mapGang g (fun k => k.store (f.mailbox + 12) (leBytes 4 3)))))

namespace Sys2Proof.Claims
open Sys2Proof.Machine

/-- The next packet of a queue is read, ready and of a type, and no other queue goes first: `bs` are its bytes, read in the state `t`
(R265, R266, R268). -/
def packetAt (s : State) (q : Nat) (type : Option Nat) (t : State) (bs : List (BitVec 8)) : Prop :=
  ∃ s1 hb, s.queueOpen q = true ∧ s.outranked q = false ∧ s.cpRead (s.queueAt q).ctx (s.queueAt q).slotVA 8 = .ok (s1, hb) ∧
    (s.queueAt q).headerReady (leNat hb) = true ∧ headerType (leNat hb) = type ∧ s1.cpRead (s.queueAt q).ctx (s.queueAt q).slotVA 64 = .ok (t, bs)

/-- A packet taken: DISPID is written at byte 56 where there is one, the header with V = 0, and the read index advances (R265, R337). -/
def takes (s : State) (q : Nat) (bs : List (BitVec 8)) (dispid : Option Nat) (t : State) : Prop :=
  let x := s.queueAt q
  ∃ s1 s2 : State, (match dispid with | some d => s.cpWrite x.ctx (x.slotVA + 56) (leBytes 4 d) | none => (.ok s : Res State)) = .ok s1 ∧
    s1.cpWrite x.ctx x.slotVA (leBytes 8 (leNat (bs.take 8) - 1)) = .ok s2 ∧
    t = (s2.mapQueue q (fun y => { y with readIdx := y.readIdx + 1 })).mapHub (fun h => { h with turns := h.turns.set (cpOf q) q })

/-- The doubleword of a packet at a byte. -/
def dwordAt (bs : List (BitVec 8)) (i : Nat) : DWord := BitVec.ofNat 64 (leNat ((bs.drop i).take 8))

/-- The 32-bit word of a packet at a byte. -/
def wordAt (bs : List (BitVec 8)) (i : Nat) : Nat := leNat ((bs.drop i).take 4)

end Sys2Proof.Claims

open Sys2Proof Sys2Proof.Machine Sys2Proof.Claims in
/-- The command processors take packets. A well-formed DISPATCH takes an entry and a DISPID and admission begins, a malformed one is refused
with a record and its signal raised with 0x22; WAIT blocks its queue; SIGNAL and NOP wait for the earlier packets and then raise their
signals; a malformed packet makes a record and raises its signal with 0x01, or in a torn queue only raises it with the teardown's cause; the oldest continuation becomes a dispatch of one gang. A kick
raises the index, and a record write changes valid and suspended (R27, R28, R265 to R271, R331, R336, R337, R376). The model's choices:
which processor, entry and turn a queue has (log 17), the DISPID and record of a refused DISPATCH (log 41), packets of a torn queue (log
42), and the key of a continuation (log 43). -/
def Obligations.CommandProcessorsTakePackets : Prop :=
  (∀ (s : State) (q : Nat) (v : DWord), exec (.kickRegisterWrite q v) s =
    .next (s.mapQueue q (fun x => { x with kick := if x.kick ≤ v.toNat then v.toNat else x.kick }))) ∧
  (∀ (s : State) (q : Nat) (valid suspended : Bool), exec (.queueRecordWrite q valid suspended) s =
    .next (s.mapQueue q (fun x => { x with
      valid := valid, suspended := suspended, torn := if valid = true ∧ x.valid = false then none else x.torn }))) ∧
  (∀ (s s2 s3 t : State) (q slot : Nat) (bs ds : List (BitVec 8)) (shape : Shape), packetAt s q (some 1) s2 bs →
    (s2.queueAt q).torn = none → s2.freeEntry q = some slot → dimsMalformed (wordAt bs 24) (wordAt bs 28) (wordAt bs 32) = false →
    wordAt bs 40 < 2 ^ 20 → (dwordAt bs 8).toNat % 8 = 0 → s2.cpRead (s2.queueAt q).ctx (dwordAt bs 8).toNat 16 = .ok (s3, ds) →
    kernelShape (dwordAt ds 8) = some shape → (dwordAt ds 0).toNat % 8 = 0 → shape.fits ((wordAt bs 36) / 2 % 2 = 1) = true →
    takes s3 q bs (some s3.freshDisp) t →
    exec (.dispatchPacket q) s = .next ((t.enterDispatch s3.freshDisp { Dispatch.none with
      valid := true, queue := q, ctx := (s3.queueAt q).ctx, packet := (s3.queueAt q).readIdx, signal := dwordAt bs 48
      entry := dwordAt ds 0, shape := dwordAt ds 8, arg := dwordAt bs 16, dimX := wordAt bs 24, dimY := wordAt bs 28, dimZ := wordAt bs 32
      key := BitVec.ofNat 32 (wordAt bs 40), parallel := shape.cls = 1, fetchable := wordAt bs 36 % 2 = 1
      rollback := wordAt bs 36 / 2 % 2 = 1, auditable := wordAt bs 36 / 4 % 2 = 1, slot := slot }).mapQueue q (fun y =>
        { y with taken := y.taken.set (s3.queueAt q).readIdx (.dispatch s3.freshDisp) }))) ∧
  (∀ (s s2 t t1 : State) (q slot : Nat) (bs : List (BitVec 8)), packetAt s q (some 1) s2 bs → (s2.queueAt q).torn = none →
    s2.freeEntry q = some slot → dimsMalformed (wordAt bs 24) (wordAt bs 28) (wordAt bs 32) = true → takes s2 q bs (some s2.freshDisp) t →
    let n := t.mapHub (fun h => { h with nextDisp := (s2.freshDisp + 1) % 2 ^ 32 })
    (n.addRecord (n.cpRecord q 4 s2.freshDisp .admissionRefused 0 (dwordAt bs 8)) false).1.raiseSignal q 0 (dwordAt bs 48)
      (some .admissionRefused) = .ok t1 →
    exec (.dispatchPacket q) s = .next t1) ∧
  (∀ (s s2 t : State) (q : Nat) (bs : List (BitVec 8)), packetAt s q (some 2) s2 bs → (s2.queueAt q).torn = none → takes s2 q bs none t →
    exec (.waitPacket q) s = .next (t.mapQueue q (fun x => { x with
      wait := some ⟨dwordAt bs 8, BitVec.ofNat 32 (wordAt bs 16), dwordAt bs 48, 0, false⟩ }))) ∧
  (∀ (s s2 t : State) (q : Nat) (bs : List (BitVec 8)), packetAt s q (some 3) s2 bs → (s2.queueAt q).torn = none → takes s2 q bs none t →
    (∀ i va p, (s.queueAt q).taken.head? ≠ some (i, .signal va p)) →
    let post := if leNat (bs.take 8) / 4 % 2 = 1 then some (wordAt bs 40) else none
    exec (.signalPacket q) s = .next (t.mapQueue q (fun x =>
      { x with taken := x.taken.set (s2.queueAt q).readIdx (.signal (dwordAt bs 8) post) }))) ∧
  (∀ (s t : State) (q i : Nat) (va : DWord) (p : Option Nat) (rest : Map Taken), (s.queueAt q).taken = (i, .signal va p) :: rest →
    (s.mapQueue q (fun x => { x with taken := x.taken.erase i })).raiseSignal q 0 va none = .ok t →
    exec (.signalPacket q) s = .next (match p with | some d => t.post q d | none => t)) ∧
  (∀ (s s2 t : State) (q : Nat) (bs : List (BitVec 8)), packetAt s q (some 0) s2 bs → (s2.queueAt q).torn = none → takes s2 q bs none t →
    (∀ i va, (s.queueAt q).taken.head? ≠ some (i, .nop va)) →
    exec (.nopPacket q) s = .next (t.mapQueue q (fun x => { x with taken := x.taken.set (s2.queueAt q).readIdx (.nop (dwordAt bs 48)) }))) ∧
  (∀ (s t : State) (q i : Nat) (va : DWord) (rest : Map Taken), (s.queueAt q).taken = (i, .nop va) :: rest →
    (s.mapQueue q (fun x => { x with taken := x.taken.erase i })).raiseSignal q 0 va none = .ok t → exec (.nopPacket q) s = .next t) ∧
  (∀ (s s2 t t1 : State) (q : Nat) (bs : List (BitVec 8)), packetAt s q none s2 bs → takes s2 q bs none t →
    let va := if leNat (bs.take 8) / 256 % 256 = 3 then dwordAt bs 8 else dwordAt bs 48
    ((s2.queueAt q).torn = none →
      (t.addRecord (t.cpRecord q 3 0 .illegalInstruction 0 (BitVec.ofNat 64 (s2.queueAt q).slotVA)) false).1.raiseSignal q 0 va
        (some .illegalInstruction) = .ok t1 → exec (.malformedPacket q) s = .next t1) ∧
    (∀ c, (s2.queueAt q).torn = some c → t.raiseSignal q 0 va (some c) = .ok t1 → exec (.malformedPacket q) s = .next t1)) ∧
  (∀ (s : State) (q slot : Nat) (r : ContRecord) (rest : List ContRecord) (shape : Shape), (s.queueAt q).conts = r :: rest →
    (s.queueAt q).valid = true → (s.queueAt q).suspended = false → s.platform.safe = false → s.outranked q = false →
    (s.queueAt q).torn = none → shapeOf r.shape = some shape → s.freeEntry q = some slot → shape.fits false = true →
    exec (.continuationRelease q) s = .next (((s.mapQueue q (fun x => { x with conts := rest })).mapHub (fun h =>
      { h with turns := h.turns.set (cpOf q) q })).enterDispatch s.freshDisp
      { Dispatch.none with
        valid := true, queue := q, ctx := (s.queueAt q).ctx, packet := r.packet, entry := r.code, shape := r.shape, arg := r.frame
        joinVA := r.join, dimX := 1, dimY := 1, dimZ := 1, cont := true, parent := r.parent, slot := slot }))

open Sys2Proof Sys2Proof.Machine Sys2Proof.Claims in
/-- What ends in a host queue and in a fault ring. A dispatch whose gangs are done and whose stores are performed raises its signal with its
first error and frees its entry; a WAIT ends when the awaited signal has the count or an error, or once its watchdog has passed its limit; the count of
a signal rises by one modulo 2^32 and its first error is marked; a fault record is written to the next free slot of its function's ring,
the header last, and signalled by an interrupt of the cluster and by MSI-X; a sampled gang is replayed on a core of another die, a replay that agrees
settles its audit, one that differs tears the queue down and makes both cores suspect, one that is abandoned is counted as skipped, and none leaves a
write; an error without a team tears its queue down or is recorded for the physical function (R217, R265, R267, R273, R375, R376, R390). The model's
choices: signals that cannot be raised (log 44), completions that meet held words (log 45), the context of a fault ring (log 31), a ring with flog
above 10 (log 103), and how a replay runs (log 69). -/
def Obligations.CompletionsRaiseSignalsAndRecords : Prop :=
  (∀ (s s1 s2 : State) (d : Nat), (s.dispatchAt d).finished = true → s.writesPending d = false →
    s.flushContext d ((s.cores.map (fun p => p.2.l1.length)).sum + 1) = (s1, none) →
    let y := s1.dispatchAt d
    s1.raiseSignal (s.dispatchAt d).queue d (s.dispatchAt d).signal (match y.failed with | some c => some c | none => y.contFailed) = .ok s2 →
    exec (.dispatchCompletion d) s = .next (s2.freeDispatch d)) ∧
  (∀ (s : State) (d : Nat), (s.dispatchAt d).finished = false → exec (.dispatchCompletion d) s = .next s) ∧
  (∀ (s s1 t : State) (q : Nat) (w : WaitPacket) (bs : List (BitVec 8)), (s.queueAt q).wait = some w → w.held = false →
    w.ticks ≤ (s.queueAt q).limit → w.awaited.toNat % 8 = 0 → s.cpRead (s.queueAt q).ctx w.awaited.toNat 8 = .ok (s1, bs) →
    let v := leNat bs
    let idle (t : State) : State := (t.mapQueue q (fun x => { x with wait := none })).mapHub (fun h => h.release (fun y => y ≠ .waitPacket q))
    (v / 2 ^ 63 = 1 → (idle s1).raiseSignal q 0 w.signal (some .watchdogExpiry) = .ok t →
      exec (.waitPacketComplete q) s = .next t) ∧
    (v / 2 ^ 63 ≠ 1 → w.value.toNat ≤ v % 2 ^ 32 → (idle s1).raiseSignal q 0 w.signal none = .ok t →
      exec (.waitPacketComplete q) s = .next t) ∧
    (v / 2 ^ 63 ≠ 1 → v % 2 ^ 32 < w.value.toNat → exec (.waitPacketComplete q) s = .next s1) ∧
    exec (.waitPacketTimeout q) s = .next s) ∧
  (∀ (s t : State) (q : Nat) (w : WaitPacket), (s.queueAt q).wait = some w → (s.queueAt q).limit < w.ticks →
    exec (.waitPacketComplete q) s = .next s ∧
    (((s.mapQueue q (fun x => { x with wait := none })).mapHub (fun h => h.release (fun y => y ≠ .waitPacket q))).raiseSignal q 0 w.signal
        (some .watchdogExpiry) = .ok t → exec (.waitPacketTimeout q) s = .next t)) ∧
  (∀ (w : DWord) (c : Cause), (raised w none).setWidth 32 = (w.setWidth 32 : BitVec 32) + 1 ∧
    (raised w none).extractLsb' 32 32 = w.extractLsb' 32 32 ∧ (raised w (some c)).getLsbD 63 = true ∧
    (w.getLsbD 63 = true → raised w (some c) = raised w none) ∧
    (w.getLsbD 63 = false → (raised w (some c)).extractLsb' 32 8 = c.code)) ∧
  (∀ (s s1 s2 s3 : State) (f ctx i : Nat) (r : FaultRecord) (hb : List (BitVec 8)), s.ringContext f = some ctx →
    s.hub.records.findIdx? (fun r => r.fn = f) = some i → s.hub.records[i]? = some r →
    let va := ((s.fnAt f).fring &&& 0x1FFFFFFFFFFF000).toNat + 64 * (s.fnAt f).slot
    s.cpRead ctx va 8 = .ok (s1, hb) → leNat hb % 2 = 0 → s1.cpWrite ctx (va + 8) (r.bytes.drop 8) = .ok s2 →
    s2.cpWrite ctx va (r.bytes.take 8) = .ok s3 →
    exec (.faultRecordDelivery f) s = .next (((s3.mapHub (fun h => { h with records := h.records.eraseIdx i })).mapFn f
      (fun g => { g with slot := (g.slot + 1) % 2 ^ (g.flog.toNat + 6) })).signalRecord f) ∧
      (s3.signalRecord f).port.msix = s3.port.msix ++ [f] ∧ (s3.signalRecord f).platform.raised = s3.platform.raised ++ [1 + f]) ∧
  (∀ (s : State) (d glin core : Nat) (x : Gang), (s.dispatchAt d).valid = true → (s.dispatchAt d).audits.contains glin = true →
    s.retiredGang d glin = some x →
    (s.replayOf d glin = none →
      (192 ≤ core ∨ core / 48 = x.core / 48 → exec (.replayAudit d glin core) s = .next s) ∧
      (∀ blocks s1, core < 192 → core / 48 ≠ x.core / 48 → s.roomOn core x.shape false 0 = some blocks →
        s.claimFor core (s.dispatchAt d).ctx d glin x.scratch blocks = .ok s1 →
        exec (.replayAudit d glin core) s = .next (s1.startReplay x core blocks))) ∧
    (∀ g, s.replayOf d glin = some g →
      let s1 := (s.discardReplay g).mapDispatch d (fun y => { y with audits := y.audits.erase glin })
      ((s.gangAt g).core ≠ core ∨ s.replayDone g = false → exec (.replayAudit d glin core) s = .next s) ∧
      ((s.gangAt g).core = core → s.replayDone g = true →
        ((s.gangAt g).audit = x.audit → exec (.replayAudit d glin core) s = .next s1) ∧
        ((s.gangAt g).audit ≠ x.audit → ∃ t, exec (.replayAudit d glin core) s = .next t ∧ (t.coreAt core).suspect = true ∧
          (t.coreAt x.core).suspect = true ∧ t.queueAt (s.dispatchAt d).queue = (s1.tearDown (s.dispatchAt d).queue .auditMismatch).queueAt
            (s.dispatchAt d).queue)))) ∧
  (∀ (s : State) (g : Nat), (s.gangAt g).nteams ≤ 16 →
    let x := s.gangAt g
    s.abandonReplay g = ((s.discardReplay g).mapDispatch x.dispatch (fun y => { y with audits := y.audits.erase x.glin })).logEvent
      (.auditSkipped x.dispatch x.glin) ∧
    (s.discardReplay g).mem = s.mem ∧ (s.discardReplay g).slices = s.slices ∧ (s.discardReplay g).hub = s.hub ∧
      ((s.discardReplay g).gangAt g).state = .ended ∧ (∀ k, k ≠ g → (s.discardReplay g).gangAt k = s.gangAt k) ∧
      (∀ u, u / 16 ≠ g → (s.discardReplay g).teamAt u = s.teamAt u)) ∧
  (∀ (s : State) (q : Nat), exec (.unattributableError (.queue q)) s = .next (s.tearDown q .unattributable) ∧
    (s.tearDown q .unattributable).hub.queues.get .none q = { s.queueAt q with torn := some .unattributable } ∧
    (s.hub.records.length < 4096 → ∃ t, exec (.unattributableError .package) s = .next t ∧
      t.hub.records = s.hub.records ++ [⟨0, (s.fnAt 0).nextId, 0, 3, .unattributable, 0, 0, 0, 0, 0, 0, 0⟩]))

/-! ### Translation, coherence and the host -/

open Sys2Proof Sys2Proof.Machine Sys2Proof.Claims in
/-- Translation steps: a walk that finds a leaf sets its bits and is remembered, one that faults changes nothing, and one that meets a line of
the host asks for it; an invalidation removes every entry of its set from the translation caches and the walk caches, and completes once no
access translated by an entry of the requester's sets is still on its way; a hardware prefetch that would fault, or of a page never cached,
is dropped (R166, R326 to R328). Which entry a full cache gives up is free (log 15). The model's choices: what an invalidation waits for, and that its
entries go from the caches while it waits (log 87). -/
def Obligations.TranslationsAreRememberedAndInvalidated : Prop :=
  (∀ (s : State) (core ctx : Nat) (va : DWord) (a : Access),
    let r := s.translate ⟨some core, none⟩ ctx va.toNat a 0
    (∀ s1 l pa, r = .ok (s1, l, pa) → exec (.pageWalk core ctx va a) s = .next s1) ∧
    (∀ c p acc b s1, r = .error (.trap c p acc b, s1) → exec (.pageWalk core ctx va a) s = .next s) ∧
    (∀ q s1, r = .error (.wait q, s1) → exec (.pageWalk core ctx va a) s = .next (s1.request q))) ∧
  (∀ (s : State) (id : Nat) (v : Invalidation), s.invAt id = some v → ∃ t, exec (.tlbInvalidationComplete id) s = .next t ∧
    (∀ c, ∀ e ∈ (t.coreAt c).tlb, e.inScope v.scope = false) ∧ (∀ d, ∀ e ∈ t.hub.dieTlb.get [] d, e.inScope v.scope = false) ∧
    (∀ d, ∀ e ∈ t.hub.walks.get [] d, e.inScope v.scope = false) ∧
    ((∀ w ∈ s.hub.invs, w.by_ = v.by_ → w.id ≤ id → s.inFlight w.scope = false) → ∀ w ∈ t.hub.invs, w.by_ = v.by_ → id < w.id) ∧
    (s.inFlight v.scope = true → t.hub.invs = s.hub.invs) ∧ t.teams = s.teams ∧ t.mem = s.mem) ∧
  (∀ (s : State) (core ctx : Nat) (va : DWord) (intoL1 : Bool),
    let r := s.translate ⟨some core, none⟩ ctx va.toNat .read 0
    (∀ e, r = .error e → exec (.hardwarePrefetch core ctx va intoL1) s = .next s) ∧
    (∀ s1 l pa, r = .ok (s1, l, pa) →
      (s1.neverCached ctx l pa = true → exec (.hardwarePrefetch core ctx va intoL1) s = .next s) ∧
      (s1.neverCached ctx l pa = false → exec (.hardwarePrefetch core ctx va intoL1) s =
        .next (s1.prefetchLine core ctx va.toNat pa (s1.pathOf (some core) ctx l pa 0) false intoL1))))

namespace Sys2Proof.Claims
open Sys2Proof.Machine

/-- The memory with a message of a line sent; one that is on its way already is not sent again. -/
def sends (s : State) (line : Nat) (x : CohMsg) : State := s.mapMem (fun m => m.send line x)

end Sys2Proof.Claims

open Sys2Proof Sys2Proof.Machine Sys2Proof.Claims in
/-- The coherence messages of R220. Every one of them completes, whatever the state: L1_DRAIN, WRITE_BACK, REQUEST_FOR_OWNERSHIP, SHARED_READ,
FORWARD_READ, FORWARD_FOR_OWNERSHIP, FORWARD_ACKNOWLEDGEMENT, INVALIDATION, INVALIDATION_ACK, LINE_DATA_TRANSFER and RECALL. What each then
holds: an L1's write-back sends its dirty words home, and where a page refuses it the line is held; a slice's write-back and a recall put
the dirty words that it holds for the home in the memory behind it, which then reads them, and leave clean copies; a proxy slice's requests are on their way; the home serves its oldest
request, forwards it to the owners, invalidates the sharers, takes the acknowledgements and answers; an invalidated sharer drops what it
does not own, passes the invalidation to its die's L1s and leaves the sharers; the slice that a message reaches wakes (R16, R168, R170, R218 to
R220). The model's choices: data and directory change in one event (log 61), the places of lines (log 71), a write-back to a read-only window page
(log 64), and an access of a core that moves copies in its own step (log 88). -/
def Obligations.CoherenceMessagesMoveLines : Prop :=
  (∀ (s : State) (core slice line : Nat) (words : BitVec 32),
    ∀ i ∈ [Instr.l1Drain core line, .writeBack (.l1 core) line, .writeBack (.slice slice) line, .requestForOwnership slice line words,
      .sharedRead slice line, .forwardRead line, .forwardForOwnership line, .forwardAcknowledgement line, .invalidation line,
      .invalidationAck line, .lineDataTransfer line, .recall line], ∃ t, exec i s = .next t) ∧
  (∀ (s : State) (core line : Nat), ∀ i ∈ [Instr.l1Drain core line, .writeBack (.l1 core) line],
    ((s.coreAt core).line line = none → exec i s = .next s) ∧
    (∀ l s1, (s.coreAt core).line line = some l → s.writeBackLine core l 0x02 = .ok s1 → exec i s = .next s1) ∧
    (∀ l c va acc p s1, (s.coreAt core).line line = some l → s.writeBackLine core l 0x02 = .error (.trap c va acc p, s1) →
      exec i s = .next (s1.holdLine core line)) ∧
    (∀ l r s1, (s.coreAt core).line line = some l → s.writeBackLine core l 0x02 = .error (.wait r, s1) → exec i s = .next (s1.request r))) ∧
  (∀ (s : State) (slice line : Nat),
    ((s.mem.copy line slice).dirty = 0 → exec (.writeBack (.slice slice) line) s = .next s) ∧
    ((s.mem.copy line slice).dirty ≠ 0 → ∃ t, exec (.writeBack (.slice slice) line) s = .next t ∧ (t.mem.copy line slice).dirty = 0 ∧
      (t.mem.copy line slice).data = (s.mem.copy line slice).data ∧ t.teams = s.teams ∧
      (∀ j, j < 32 → (s.mem.copy line slice).dirty.getLsbD j = true → s.mem.holder (32 * line + j) = some slice →
        t.mem.backing (32 * line + j) = (s.mem.copy line slice).data.get 0 j))) ∧
  (∀ (s : State) (line : Nat), ∃ t, exec (.recall line) s = .next t ∧ t = (s.atHome line).mapMem (fun m =>
    (((m.dirAt line).owners.map (fun p => p.2)).eraseDups).foldl (fun (m : Mem) o => m.writeBackSlice line o) m) ∧
    (∀ j o, j < 32 → (s.mem.dirAt line).owners.find j = some o → (s.mem.copy line o).dirty.getLsbD j = true →
      (∀ p ∈ (s.mem.dirAt line).owners, p.2 < 128) → (∀ q, q % 128 ≠ o % 128 → (s.mem.copy line q).dirty.getLsbD j = false) →
      t.mem.backing (32 * line + j) = (s.mem.copy line o).data.get 0 j)) ∧
  (∀ (s : State) (slice line : Nat) (words : BitVec 32), isProxy slice line = true →
    let asked (x : CohMsg) (out : Out) : Prop :=
      (s.mem.msgs.contains (line, x) = true → out = .next s) ∧
      (s.mem.msgs.contains (line, x) = false → out = .next (sends (s.atHome line) line x) ∧
        (sends (s.atHome line) line x).mem.msgs = s.mem.msgs ++ [(line, x)])
    (words ≠ 0 → asked (.ownership slice words) (exec (.requestForOwnership slice line words) s)) ∧
    asked (.shared slice) (exec (.sharedRead slice line) s)) ∧
  (∀ (s : State) (line r : Nat), s.mem.request line = some (.shared r) →
    let owners := (s.mem.dirAt line).others r 0xFFFFFFFF
    let left := owners.find? (fun o => !s.mem.msgs.contains (line, .forwardRead r o))
    (∀ o, left = some o → exec (.forwardRead line) s = .next (sends (s.wakeSlice o) line (.forwardRead r o))) ∧
    (left = none → exec (.forwardRead line) s = .next s)) ∧
  (∀ (s : State) (line r : Nat) (words : BitVec 32), s.mem.request line = some (.ownership r words) →
    let e := s.mem.dirAt line
    let named (o : Nat) : CohMsg := .forwardOwn r o (e.ownedBy o &&& words)
    (∀ o, (e.others r words).find? (fun o => !s.mem.msgs.contains (line, named o)) = some o →
      exec (.forwardForOwnership line) s = .next (sends (s.wakeSlice o) line (named o))) ∧
    (∀ q, (s.mem.sharersOf line r).find? (fun q => !s.mem.msgs.contains (line, .invalidate q)) = some q →
      exec (.invalidation line) s = .next (sends (s.wakeSlice q) line (.invalidate q)))) ∧
  (∀ (s : State) (line o : Nat), s.mem.message line (fun x => match x with | .forwardAck _ => true | _ => false) = some (.forwardAck o) →
    exec (.forwardAcknowledgement line) s = .next ((s.atHome line).mapMem (fun m => { m with msgs := m.msgs.erase (line, .forwardAck o) }))) ∧
  (∀ (s : State) (line q : Nat), s.mem.message line (fun x => match x with | .invalidate _ => true | _ => false) = some (.invalidate q) →
    ∃ t, exec (.invalidationAck line) s = .next t ∧ t.mem.msgs = s.mem.msgs.erase (line, .invalidate q) ∧
      (t.mem.dirAt line).sharers = (s.mem.dirAt line).sharers &&& ~~~(1#5 <<< (q / 24)) ∧
      (t.mem.dirAt line).owners = (s.mem.dirAt line).owners ∧
      (t.mem.copy line q).valid = (s.mem.copy line q).valid &&& (s.mem.dirAt line).ownedBy q ∧ t.teams = s.teams) ∧
  (∀ (s : State) (line : Nat) (x : CohMsg),
    let forwards := s.mem.message line (fun x => match x with | .forwardRead _ _ => true | .forwardOwn _ _ _ => true | _ => false)
    (forwards = some x → exec (.lineDataTransfer line) s = .next (s.answerForward line x)) ∧
    (forwards = none → exec (.lineDataTransfer line) s = .next (s.answerRequest line)))

namespace Sys2Proof.Claims
open Sys2Proof.Machine

/-- A host access of bytes that lie in DRAM, in exposed regions that are not flipping, outside every operator window (R215, R384, R386). -/
def hostReaches (s : State) (pa n : Nat) : Prop :=
  s.hostMayAccess pa n = true ∧ s.flipping pa n = false ∧ ∀ r ∈ lineRuns pa n, s.windowAt (pa + r.1) = none

/-- A host write within one line, at its home slice: its present bytes are written in home order (R228). -/
def hostWrites (s : State) (pa : Nat) (bs : List (Option (BitVec 8))) : State :=
  (byteRuns 0 bs).foldl (fun (s : State) r => s.homeWrite (pa + r.1) r.2) s

/-- Nothing waits for the host's answer: no write-back of a mapping, atomic, host access or connection. -/
def nothingWaits (s : State) : Prop :=
  s.port.waiting = [] ∧ s.net.conns = [] ∧ (∀ p ∈ s.cores, ∀ m ∈ p.2.mappings, s.unmapWaits m = false) ∧
    ∀ p ∈ s.teams, ∀ w, p.2.status ≠ .atomicOp w

/-- The home slices of the lines of a byte range woken by an access (R16). -/
def homesWake (s : State) (pa n : Nat) : State := (linesOf pa n).foldl (fun (s : State) l => s.atHome l) s

/-- A function's BAR0 maps `n` bytes at an offset of hub register space: all of it for function 0, its doorbell page for a virtual function
(R384, R389). -/
def mapped (fn off n : Nat) : Prop :=
  0 < n ∧ off + n ≤ 0x100000000 ∧ (fn = 0 ∨ (fn < 64 ∧ off / 4096 = fn ∧ (off + n - 1) / 4096 = fn))

/-- The bytes of the health word, low byte first (R391). -/
def healthBytes (s : State) : List (BitVec 8) := (List.range 8).map (fun i => s.platform.health.extractLsb' (8 * i) 8)

/-- An answer to the host: bytes, or an error. -/
def answered (s : State) (pa : Nat) (x : Option (List (BitVec 8))) : State :=
  { s with port := { s.port with answers := s.port.answers ++ [(pa, x)] } }

/-- The team goes on from an atomic that waits, its first group failed: it takes 0x52 with UVAL naming the lane and the two statuses (R388). -/
def atomicFails (s : State) (u : Nat) (g : AtomicGroup) (cache : BitVec 4) (io : BitVec 3) : State :=
  s.asTeam u (fun s => s.deliverTrap u .hostAtomic 0 s.regs.pc (s.regs.pc + 8)
    (some ((0 : BitVec 38) ++ (BitVec.ofNat 10 (g.lanes.headD 0) ++ ((0 : BitVec 4) ++ (cache ++ ((0 : BitVec 5) ++ io)))))))

end Sys2Proof.Claims

open Sys2Proof Sys2Proof.Machine Sys2Proof.Claims in
/-- The host's link. A host read of exposed memory answers the bytes in home order, a write is performed at the home slices of its lines under
its byte mask, and within an apply window is one write, an AtomicOp answers the old value and stores the new one, and an access outside
exposed memory answers an error; a read by BAR0 answers what hub register space holds where the BAR maps it, and an error elsewhere;
configuration space and the I3C target show the health word at any time, and in the safe state CXL.cache is refused and no hart runs;
the host's own write to its memory is performed once the device holds no copy of its lines; a
back-invalidate marks its entry, and its response frees it; a snoop makes the device give up or share a host line; a grant by CXL.cache
ends the requests that it answers (R215, R216, R221, R228, R384 to R387, R389 to R391). Atomics that wait for the host (R387, R388): an AtomicOp that completes with success stores the new value of
its group at home, and a RED of which it was the last group goes on; any other status than Unsupported Request, a timeout of the AtomicOp
and a timeout of ownership deliver 0x52 with the lane and the statuses in UVAL. The model's choices: refused accesses and poison as the
host sees them (log 58), refused requests of the device (log 60), and when the host's own write is performed (log 91). -/
def Obligations.HostAccessesAreAnswered : Prop :=
  ((∀ (s : State) (fn pa n : Nat) (cached exclusive : Bool),
     (hostReaches s pa n → (cached = false ∨ ∀ l ∈ linesOf pa n, (s.biasAt (l / 16384)).host = false) →
       exec (.hostMemRead ⟨.memory, fn, pa⟩ n cached exclusive) s = .next (answered (homesWake s pa n) pa (some (s.mem.bytes pa n)))) ∧
     (rangeOf pa ≠ .hub → s.hostMayAccess pa n = false →
       exec (.hostMemRead ⟨.memory, fn, pa⟩ n cached exclusive) s = .next (answered s pa none)) ∧
     (s.hostMayAccess pa n = true → s.flipping pa n = true → exec (.hostMemRead ⟨.memory, fn, pa⟩ n cached exclusive) s =
       .next { s with port := { s.port with waiting := s.port.waiting ++ [.read fn pa n cached exclusive] } }) ∧
     (mapped fn pa n → exec (.hostMemRead ⟨.memory, fn, hubBase + pa⟩ n cached exclusive) s =
       .next (answered s (hubBase + pa) (some (s.hubBytes pa n)))) ∧
     (pa < 0x100000000 → ¬mapped fn pa n →
       exec (.hostMemRead ⟨.memory, fn, hubBase + pa⟩ n cached exclusive) s = .next (answered s (hubBase + pa) none)) ∧
     exec (.hostMemRead ⟨.capability, fn, 0x10⟩ 8 cached exclusive) s = .next (answered s 0x10 (some (healthBytes s))) ∧
     exec (.hostMemRead ⟨.sideband, fn, 0⟩ 8 cached exclusive) s = .next (answered s 0 (some (healthBytes s))) ∧
     (s.platform.safe = true → ∀ i ∈ [Instr.hostMemRead ⟨.cluster, fn, pa⟩ n cached exclusive, .hostSnoop pa cached,
       .cxlCacheResponse pa .shared, .cxlCacheResponse pa .owned, .cxlCacheResponse pa .refused], exec i s = .next s)) ∧
   (∀ (s : State) (fn pa : Nat) (bs : List (Option (BitVec 8))),
     (rangeOf pa = .dram → hostReaches s pa bs.length → exec (.hostMemWrite ⟨.memory, fn, pa⟩ bs) s =
       .next ((lineRuns pa bs.length).foldl (fun (s : State) r => hostWrites s (pa + r.1) ((bs.drop r.1).take r.2)) s)) ∧
     (rangeOf pa ≠ .host → rangeOf pa ≠ .hub → s.hostMayAccess pa bs.length = false →
       exec (.hostMemWrite ⟨.memory, fn, pa⟩ bs) s = .next (answered s pa none)) ∧
     (∀ x ∈ [HostSpace.capability, .sideband], exec (.hostMemWrite ⟨x, fn, pa⟩ bs) s = .next s) ∧
     (rangeOf pa = .host → (∀ l ∈ linesOf pa bs.length, s.mem.grant l = none) → exec (.hostMemWrite ⟨.memory, fn, pa⟩ bs) s =
       .next (s.mapMem (fun m => (byteRuns 0 bs).foldl (fun (m : Mem) r => m.setBytes (pa + r.1) r.2) m))) ∧
     (∀ sl n page o, rangeOf pa = .dram → s.hostMayAccess pa bs.length = true → s.flipping pa bs.length = false →
       lineRuns pa bs.length = [(0, bs.length)] → s.windowAt pa = some (sl, n, true, page) → s.hostOperator fn sl n = some o →
       page * 4096 + pa % 4096 + bs.length ≤ o.s * o.astride → exec (.hostMemWrite ⟨.memory, fn, pa⟩ bs) s =
         .next ((s.wakeSlice sl).mapSlice sl (fun c => { c with writes := c.writes ++ [⟨.other, 65536, 0, n, page * 4096 + pa % 4096,
           (List.range bs.length).filterMap (fun i => (bs.getD i none).map (fun b => (i, b))), []⟩] })))) ∧
   (∀ (s : State) (fn : Nat) (op : HostAtomic) (pa n : Nat) (x y : DWord), (n = 4 ∨ n = 8) → pa % n = 0 → rangeOf pa ≠ .hub →
     s.hostMayAccess pa n = true → s.flipping pa n = false → s.windowAt pa = none →
     let old := leNat (s.mem.bytes pa n)
     let new := match op with
       | .fetchAdd => (old + x.toNat) % 2 ^ (8 * n)
       | .swap => x.toNat % 2 ^ (8 * n)
       | .cas => if old = y.toNat % 2 ^ (8 * n) then x.toNat % 2 ^ (8 * n) else old
     exec (.hostAtomicop op ⟨.memory, fn, pa⟩ n x y) s =
       .next (answered (s.homeWrite pa (leBytes n new)) pa (some (s.mem.bytes pa n)))) ∧
   (∀ (s : State) (line : Nat), exec (.bisnpinv line) s = .next (s.mapMem (fun m => { m with
     snoop := m.snoop.map (fun e => if e.line = line then { e with invalidating := true } else e) }))) ∧
   (∀ (s : State) (line : Nat) (dirty : List (Nat × BitVec 32)) (e : SnoopEntry), s.mem.snoopOf line = some e →
     (e.invalidating = false → exec (.birsp line dirty) s = .next s) ∧
     (e.invalidating = true → e.modified = false → nothingWaits s →
       ∃ t, exec (.birsp line dirty) s = .next t ∧ t.mem = { s.mem with snoop := s.mem.snoop.filter (fun x => x.line ≠ line) } ∧
         t.teams = s.teams ∧ t.port = s.port) ∧
     (∀ j w, e.invalidating = true → e.modified = true → dirty = [(j, w)] → j < 32 → (s.mem.dirAt line).owners.find j = none →
       nothingWaits s → ∃ t, exec (.birsp line dirty) s = .next t ∧ t.mem.word (32 * line + j) = w ∧ t.mem.snoopOf line = none)) ∧
   (∀ (s : State) (line : Nat) (x : Bool), s.platform.safe = false → rangeOf (128 * line) = .host → s.mem.grant line = some x →
     (exec (.hostSnoop line true) s = .next (s.mapMem (fun m => (m.flushLine line).setGrant line none)).serveWaiting) ∧
     (exec (.hostSnoop line false) s = .next (s.mapMem (fun m => ((m.recallLine line).cleanLine line).setGrant line (some false))))) ∧
   (∀ (s : State) (line : Nat), s.platform.safe = false → s.mem.requests.any (fun r => r.line = line) = true → nothingWaits s →
     (s.mem.grant line = none → ∃ t, exec (.cxlCacheResponse line .shared) s = .next t ∧ t.mem.grant line = some false ∧
       t.mem.requests = s.mem.requests.filter (fun r => !(r.line = line && !r.owned)) ∧ t.teams = s.teams) ∧
     (∃ t, exec (.cxlCacheResponse line .owned) s = .next t ∧ t.mem.grant line = some true ∧
       t.mem.requests = s.mem.requests.filter (fun r => r.line ≠ line) ∧ t.teams = s.teams) ∧
     exec (.cxlCacheResponse line .refused) s = .next (s.mapMem (fun m => { m with requests := m.requests.filter (fun r => r.line ≠ line) })))) ∧
  (∀ (s : State) (u : Nat) (w : AtomicWait) (g : AtomicGroup) (rest : List AtomicGroup), (s.teamAt u).status = .atomicOp w → w.groups = g :: rest →
     w.ending = none →
     (∀ (old : DWord) pa cached, w.viaCache = false → w.op = 0x201 → rest = [] → g.place = .home pa cached → nextStandsOf s u →
       exec (.atomicopCompletion u 0 old) s = .next (((s.atHome (pa / 128)).mapMem (fun m => (m.flushLine (pa / 128)).setBytes pa (leBytes w.o.ty.size
         (atomicRun (s.teamAt u).regs w.op w.o (old.toNat % 2 ^ (8 * w.o.ty.size)) g.lanes).1))).mapTeam u (fun t => { t with
           regs := { t.regs with pc := t.regs.pc + 8 }
           windows := t.windows.map (fun x => { x with left := x.left - 1 })
           status := .ready
           stalled := none
           stuck := none }))) ∧
     (∀ (old : DWord) (status : BitVec 3), w.viaCache = false → status ≠ 0 → status ≠ 1 →
       exec (.atomicopCompletion u status old) s = .next (atomicFails s u g 0 status)) ∧
     (∀ (old : DWord), w.viaCache = false → s.fnOf (s.ctxOf u) ≠ 0 → exec (.atomicopCompletion u 1 old) s = .next (atomicFails s u g 1 1)) ∧
     (w.viaCache = false → exec (.atomicopTimeout u) s = .next (atomicFails s u g 0 7)) ∧
     (w.viaCache = true → exec (.atomicopTimeout u) s = .next s) ∧
     (∀ pa cached, w.viaCache = true → g.place = .home pa cached → rangeOf (128 * (pa / 128)) = .host →
       exec (.ownershipTimeout u) s = .next (atomicFails s u g 3 w.io)) ∧
     (w.viaCache = false → exec (.ownershipTimeout u) s = .next s))

/-! ### Slices and the network engine -/

namespace Sys2Proof.Claims
open Sys2Proof.Machine

/-- The network port that serves a connection wakes (R16; log 51). -/
def portWakes (s : State) (conn : Nat) : State := s.wakeIsland (480 + conn % 12)

/-- The exact value that an unmasked computing command gives lane `i` of its destination, which takes its low bits (R249); the reduction of a
lane whose partner lies beyond the bed takes the identity of its operation, and is not of this list. -/
def loamLane (op : LoamOp) (b : Bed) (i : Nat) : Option (Field × Int) :=
  let v (f : Field) : Int := intOf f.signed f.width (b.raw f i)
  let y (x : LoamSrc) : Int := match x with | .field f => v f | .const c => c
  let bits (d : Field) (x : Int) : Nat := (x % 2 ^ d.width).toNat
  let one (p : Bool) : Int := if p then 1 else 0
  match op with
  | .add d x z => some (d, v x + y z)
  | .sub d x z => some (d, v x - y z)
  | .mul d x z => some (d, v x * y z)
  | .logic 0 d x z => some (d, (bits d (v x) &&& bits d (y z) : Nat))
  | .logic 1 d x z => some (d, (bits d (v x) ||| bits d (y z) : Nat))
  | .logic 2 d x z => some (d, (bits d (v x) ^^^ bits d (y z) : Nat))
  | .logic 3 d x _ => some (d, (2 ^ d.width - 1 - bits d (v x) : Nat))
  | .cmp 0 d x z => some (d, one (v x = y z))
  | .cmp 1 d x z => some (d, one (v x ≠ y z))
  | .cmp 2 d x z => some (d, one (v x < y z))
  | .cmp 3 d x z => some (d, one (y z ≤ v x))
  | .mm false d x z => some (d, if v x ≤ y z then v x else y z)
  | .mm true d x z => some (d, if v x ≤ y z then y z else v x)
  | .shift 0 d x k => some (d, v x * 2 ^ k)
  | .shift 1 d x k => some (d, (b.raw x i / 2 ^ k : Nat))
  | .shift 2 d x k => some (d, v x / 2 ^ k)
  | .red 0 d x j => if i + 2 ^ j < b.lanes then some (d, v x + intOf x.signed x.width (b.raw x (i + 2 ^ j))) else none
  | .matches d x key => some (d, one (b.raw x i = key.toNat % 2 ^ x.width))
  | .count d x => some (d, ((List.range x.width).filter (fun p => (b.raw x i).testBit p)).length)
  | _ => none

/-- A command computes in every lane at once: it moves no memory and writes no word. -/
def computes (op : LoamOp) : Bool :=
  match op with
  | .lmin _ _ _ _ => false
  | .lmout _ _ _ _ => false
  | .done _ _ => false
  | .release _ _ => false
  | _ => true

/-- A network command completed without an error: its completion word takes its low 24 bits under code 0, in the scratchpad of a gang that is
resident or saved; one without a word leaves nothing (R287). -/
def netDone (s : State) (c : NetCmd) : State :=
  match c.word with
  | none => s
  | some (off, v) =>
    if (s.gangAt c.gang).state = .resident ∨ (s.gangAt c.gang).state = .saved then
      s.mapGang c.gang (fun g => g.store off (leBytes 4 (v.toNat % 2 ^ 24)))
    else s

end Sys2Proof.Claims

open Sys2Proof Sys2Proof.Machine Sys2Proof.Claims in
/-- A computing loam command without a mask gives every lane of its bed its result, from the values that the lanes held before the command,
reduced to the width of its destination; the rows outside the destination keep their bits (R241, R248, R249). -/
def Obligations.LoamCommandsComputeEveryLane : Prop :=
  ∀ (c : LoamCmd) (b : Bed), c.mask = none →
    (∀ i d n, i < b.lanes → loamLane c.op b i = some (d, n) → ((c.compute b).raw d i : Int) = n % 2 ^ d.width) ∧
    (∀ d r, (∃ n, loamLane c.op b 0 = some (d, n)) → (r < d.start ∨ d.start + d.width ≤ r) →
      (c.compute b).rows.get 0 r = b.rows.get 0 r)

open Sys2Proof Sys2Proof.Machine Sys2Proof.Claims in
/-- The steps of a slice. An apply-slot write that its order allows takes its bytes, and the one that completes a fill hands the vector to the
unit and empties the slot; a fire writes the result slot line by line in ascending order, and with the last line its generation, overwrite
count and flags, and a vector with a poisoned byte, or a poisoned word of the matrix as the fire begins, gives NaN; UNINST removes an operator, or
waits for its installation; an arrived loam command is performed and leaves the queues; a release is decided as it arrives, and ends its
bed in its turn; a destroyed bed is gone, but for one that a release has ended (R175, R178, R213, R214, R226 to R229, R234, R237, R244, R245,
R248 to R254, R333, R403). The model's choice: one turn makes a loam command arrive and performs the oldest (log 36). -/
def Obligations.SlicesApplyFireAndPerform : Prop :=
  (∀ (s : State) (sl i : Nat) (w : ApplyWrite), (s.sliceAt sl).writes[i]? = some w →
    (s.mayApply sl i = false → exec (.applySlotWrite sl i) s = .next s) ∧
    (∀ conn, s.mayApply sl i = true → w.writer = .packet conn → exec (.applySlotWrite sl i) s = .next ((s.applyWrite sl i).publishAll conn)) ∧
    (s.mayApply sl i = true → (∀ conn, w.writer ≠ .packet conn) → ((s.sliceAt sl).slot w.slot).op = none → exec (.applySlotWrite sl i) s =
      .next (s.mapSlice sl (fun c => { c with writes := c.writes.eraseIdx i }))) ∧
    (∀ o, s.mayApply sl i = true → (∀ conn, w.writer ≠ .packet conn) → ((s.sliceAt sl).slot w.slot).op = some o →
      let v := w.offset / o.astride
      let a := (o.applySlot v).take o.ein o.n (w.bytes.map (fun p => (w.offset % o.astride + p.1, p.2)))
        (w.bad.map (fun b => w.offset % o.astride + b))
      ∃ t, exec (.applySlotWrite sl i) s = .next t ∧ (t.sliceAt sl).writes = (s.sliceAt sl).writes.eraseIdx i ∧
        t.teams = s.teams ∧ t.mem = s.mem ∧
        (o.completes w = false → (t.sliceAt sl).fires = (s.sliceAt sl).fires ∧
          ∃ p, ((t.sliceAt sl).slot w.slot).op = some p ∧ p.applySlot v = a) ∧
        (o.completes w = true → (t.sliceAt sl).fires.length = (s.sliceAt sl).fires.length + 1 ∧
          (t.sliceAt sl).fires.getLast? = some ⟨w.slot, v, a.bytes, a.overwrites, !a.bad.isEmpty, 0⟩ ∧
          ∃ p, ((t.sliceAt sl).slot w.slot).op = some p ∧ p.applySlot v = ⟨[], [], 0, []⟩))) ∧
  (∀ (s : State) (sl : Nat) (f : Snapshot) (rest : List Snapshot) (o : Operator), (s.sliceAt sl).fires = f :: rest →
    ((s.sliceAt sl).slot f.slot).op = some o →
    let bad : Bool := f.poisoned || (f.lines = 0 && o.poisoned)
    let ys := if bad = true then List.replicate o.m (fmtOf o.fmtOut).canonical else o.compute f.bytes
    (∃ t p, exec (.operatorFire ⟨sl, 1⟩) s = .next t ∧ ((t.sliceAt sl).slot f.slot).op = some p ∧ t.teams = s.teams ∧ t.mem = s.mem ∧
      (∀ b, (p.resultSlot f.vslot).bytes.byte b =
        if 128 * f.lines ≤ b ∧ b < 128 * f.lines + 128 ∧ b < o.m * o.eout then BitVec.ofNat 8 (ys.getD (b / o.eout) 0 / 256 ^ (b % o.eout))
        else (o.resultSlot f.vslot).bytes.byte b) ∧
      (∀ b, b ∈ (p.resultSlot f.vslot).bad ↔ b ∈ (o.resultSlot f.vslot).bad ∧ b / 128 ≠ f.lines) ∧
      (128 * (f.lines + 1) < o.qstride → (t.sliceAt sl).fires = { f with lines := f.lines + 1, poisoned := bad } :: rest ∧
        (p.resultSlot f.vslot).gen = (o.resultSlot f.vslot).gen ∧ (p.resultSlot f.vslot).flags = (o.resultSlot f.vslot).flags) ∧
      (o.qstride ≤ 128 * (f.lines + 1) → (t.sliceAt sl).fires = rest ∧
        (p.resultSlot f.vslot).gen = (o.resultSlot f.vslot).gen + 1 ∧ (p.resultSlot f.vslot).overwrites = BitVec.ofNat 16 f.overwrites ∧
        (p.resultSlot f.vslot).flags.getLsbD 3 = true ∧ (p.resultSlot f.vslot).flags.getLsbD 2 = bad)) ∧
    exec (.operatorFire ⟨sl, 0⟩) s = .next s ∧
    (∀ t n, exec (.operatorFire ⟨sl, 1⟩) s = .next t → 128 * (f.lines + 1) < o.qstride →
      exec (.operatorFire ⟨sl, n + 1⟩) s = exec (.operatorFire ⟨sl, n⟩) t)) ∧
  (∀ (s : State) (sl n : Nat),
    let q := (s.sliceAt sl).slot n
    (q.installing = true → exec (.opslotUninst sl n) s = .next (s.mapSlot sl n (fun q => { q with removing := true }))) ∧
    (q.installing = false → q.op ≠ none → exec (.opslotUninst sl n) s = .next (s.removeOperator sl n)) ∧
    (q.installing = false → q.op = none → exec (.opslotUninst sl n) s = .next s)) ∧
  (∀ (s : State) (sl core id r : Nat) (x : Cmd) (l : LoamCmd), (s.coreAt core).command id = some x → x.kind = .loam l → l.place.1 = sl →
    let b := s.mapSlice sl (fun c => { c with running := some (core, id) })
    (x.started = true → s.nextLoam sl = some (core, id) →
      (computes l.op = true → exec (.loamCommandPerform sl core id (r + 1)) s =
        .next (((b.mapBed sl l.place.2 l.compute).endLoam core x l).settleBeds sl)) ∧
      (∀ off v, l.op = .done off v → exec (.loamCommandPerform sl core id (r + 1)) s =
        .next (((b.endLoam core x l).storeGang x.gang off (leBytes 4 v.toNat)).settleBeds sl)) ∧
      (∀ d l0 n va s1 y, l.op = .lmin d l0 n va → b.lminRun core x l d l0 n va = s1 → (s1.coreAt core).command id = some y →
        y.stopped = false → n ≤ y.progress → s1.writesOf (.command core id) = false →
        exec (.loamCommandPerform sl core id (r + 1)) s = .next ((s1.endLoam core y l).settleBeds sl)) ∧
      (∀ d l0 n va s1 y, l.op = .lmout d l0 n va → b.lmoutRun core x l d l0 n va = s1 → (s1.coreAt core).command id = some y →
        y.stopped = false → n ≤ y.progress →
        (s1.writesOf (.command core id) = false → exec (.loamCommandPerform sl core id (r + 1)) s = .next ((s1.endLoam core y l).settleBeds sl)) ∧
        (s1.writesOf (.command core id) = true → exec (.loamCommandPerform sl core id (r + 1)) s = .next (s1.settleBeds sl)))) ∧
    (x.started = false → s.unblocked x = false → exec (.loamCommandPerform sl core id r) s = .next s) ∧
    (∀ u d, x.started = false → s.unblocked x = true → l.op = .release u d →
      (s.bedOf x.ctx l.handle = none → exec (.loamCommandPerform sl core id 0) s =
        .next (((s.mapCore core (fun k => k.dropCommand x.id)).releaseResult u d 1).stepLoam sl 0)) ∧
      ((s.bedOf x.ctx l.handle).isSome = true → (s.bedQueue sl l.place.2).length < 64 →
        exec (.loamCommandPerform sl core id 0) s = .next ((s.arriveRelease core x l u d).stepLoam sl 0))) ∧
    (∀ u d bed, x.started = true → s.nextLoam sl = some (core, id) → l.op = .release u d →
      (b.endLoam core x l).bedAt x.ctx l.handle = some (sl, bed) →
      ∃ t, exec (.loamCommandPerform sl core id (r + 1)) s = .next t ∧ (t.sliceAt sl).beds.find bed = none)) ∧
  (∀ (s s1 : State) (core m k : Nat) (x : Cmd) (l : LoamCmd) (d : Field) (l0 n : Nat) (va : DWord) (b : Bed) (bs : List (BitVec 8 × Bool)),
    l.mask = none → k = x.progress → m = runElements va d.elemSize k n (s.gangAt x.gang).scratch →
    s.engineReadMarked core x.gang x.ctx (va.toNat + k * d.elemSize) (m * d.elemSize) 0x21 = .ok (s1, bs) →
    (s1.sliceAt l.place.1).beds.find l.place.2 = some b →
    let t := s.lminRun core x l d l0 n va
    ∀ j, j < m → l0 + k + j < 131072 → (((t.sliceAt l.place.1).beds.get b l.place.2).raw d (l0 + k + j) : Nat) =
      leNat (((bs.drop (j * d.elemSize)).take d.elemSize).map (fun p => p.1)) % 2 ^ d.width) ∧
  (∀ (s : State) (sl bed : Nat) (b : Bed), (s.sliceAt sl).beds.find bed = some b →
    b.dying = false →
    (s.releasing b.ctx (b.handle sl bed) = true → exec (.bedDestroy sl bed) s = .next s) ∧
    (s.releasing b.ctx (b.handle sl bed) = false → (∀ p ∈ s.bedCommands sl bed, (s.sliceAt sl).running ≠ some (p.1, p.2.id)) →
      ∃ t, exec (.bedDestroy sl bed) s = .next t ∧ (t.sliceAt sl).beds.find bed = none))

open Sys2Proof Sys2Proof.Machine Sys2Proof.Claims in
/-- The network engine takes a core's oldest command: NPOST registers its buffer, or is refused where the number is in use; NUNPOST begins a
revocation, complete once every packet up to h that addresses the buffer is published or rejected; NSEND sends, NSENDT is armed below its
threshold. A packet that arrives next in order is placed, and once all its bytes are performed raises its counter by its length and is
answered, one that has been published changes nothing, and one whose buffer is not registered is answered with 0x50; an acknowledgement
completes its send; a failed connection fails every send of it, system software opens one, and closes one, which revokes its buffers (R16,
R211, R285, R287 to R294, R382). The model's choices: what stays on a failed connection (log 35), the port that wakes (log 51), the statuses of
acknowledgements (log 65), and how a connection is opened or closed (log 72). -/
def Obligations.NetworkStepsMovePackets : Prop :=
  (∀ (s : State) (core : Nat) (c : NetCmd) (rest : List NetCmd), (s.coreAt core).netq = c :: rest →
    let taken := s.mapCore core (fun k => { k with netq := rest })
    let k := s.connAt c.conn
    k.failed = false →
    (c.kind = .npost → k.revocations = [] →
      (k.buffers.find c.buffer = none → exec (.networkCommandAccept core) s = .next (netDone (taken.mapConn c.conn (fun k =>
        { k with buffers := k.buffers.set c.buffer ⟨c.va, c.len, c.counter, c.ctx⟩ })) c)) ∧
      (k.buffers.find c.buffer ≠ none → exec (.networkCommandAccept core) s = .next (taken.netComplete c (some .illegalRegister)))) ∧
    (∀ b, c.kind = .nunpost → k.buffers.find c.buffer = some b → exec (.networkCommandAccept core) s =
      .next (taken.mapConn c.conn (fun k => { k with
        buffers := k.buffers.erase c.buffer, revocations := k.revocations ++ [⟨c.buffer, b, k.highest, c⟩] }))) ∧
    (c.kind = .nsend → exec (.networkCommandAccept core) s = .next (taken.startSend c)) ∧
    (c.kind = .nsendt → s.net.armed.length < 16384 →
      ((s.net.counters.get 0 c.counter).toNat < c.threshold →
        exec (.networkCommandAccept core) s = .next (taken.mapNet (fun n => { n with armed := n.armed ++ [c] }))) ∧
      (c.threshold ≤ (s.net.counters.get 0 c.counter).toNat → exec (.networkCommandAccept core) s = .next (taken.startSend c)))) ∧
  (∀ (s : State) (conn seq buffer off : Nat) (bs : List (BitVec 8)),
    ∀ i ∈ [Instr.packetArrival conn seq buffer off bs, .packetRetransmission conn seq buffer off bs],
    let k := s.connAt conn
    ((k.isOpen = false ∨ k.failed = true ∨ seq ≤ k.published) → exec i s = .next (portWakes s conn)) ∧
    (k.isOpen = true → k.failed = false → k.held = false → k.placed = false → k.arrived = [] → k.revocations = [] → seq = k.published + 1 →
      0 < bs.length → bs.length ≤ 4096 →
      (∀ b s1, k.buffers.find buffer = some b → off + bs.length ≤ b.len →
        ((portWakes s conn).mapConn conn (fun k => { k with
          highest := if k.highest ≤ seq then seq else k.highest
          arrived := [(seq, ⟨buffer, off, bs, some b⟩)] })).placePacket conn b ⟨buffer, off, bs, some b⟩ = .ok s1 →
        (s1.writesOf (.packet conn) = false → exec i s = .next (((s1.mapConn conn (fun k => { k with
          acks := k.acks ++ [(k.published + 1, 0)], published := k.published + 1
          arrived := k.arrived.erase (k.published + 1), placed := false })).setCounter b.counter
            (s1.net.counters.get 0 b.counter + BitVec.ofNat 64 bs.length)).publish conn 1)) ∧
        (s1.writesOf (.packet conn) = true → exec i s = .next (s1.mapConn conn (fun k => { k with placed := true })))) ∧
      (k.buffers.find buffer = none → ∃ t, exec i s = .next t ∧ (t.connAt conn).acks = k.acks ++ [(seq, 0x50)] ∧
        (t.connAt conn).published = seq ∧ t.net.counters = s.net.counters ∧ t.mem = s.mem))) ∧
  (∀ (s : State) (conn id : Nat) (x : Send), (s.connAt conn).sends.find? (fun y => y.id = id && !y.held) = some x →
    let dropped := s.mapConn conn (fun k => { k with sends := k.sends.filter (fun y => y.id ≠ id) })
    exec (.sendAcknowledgement conn id 0) s = .next (netDone dropped x.cmd) ∧
    exec (.sendAcknowledgement conn id 0x50) s = .next (dropped.netComplete x.cmd (some .bufferRevoked))) ∧
  (∀ (s : State) (conn : Nat), (s.connAt conn).isOpen = true → (s.connAt conn).failed = false →
    exec (.connectionFailure ⟨conn, .fails⟩) s = .next ((s.connAt conn).sends.foldl (fun (s : State) x => s.netComplete x.cmd (some .linkFailure))
      (s.mapConn conn (fun k => { k with failed := true, sends := [] })))) ∧
  (∀ (s : State) (conn : Nat), (s.connAt conn).isOpen = false ∨ (s.connAt conn).failed = true →
    ∃ t, exec (.connectionFailure ⟨conn, .opens⟩) s = .next t ∧ (t.connAt conn).isOpen = true ∧ (t.connAt conn).failed = false ∧
      (t.connAt conn).sendSeq = 0 ∧ (t.connAt conn).published = 0 ∧ (t.connAt conn).buffers = (s.connAt conn).buffers ∧
      (∀ c, c ≠ conn → t.connAt c = s.connAt c) ∧ t.mem = s.mem) ∧
  (∀ (s : State) (conn : Nat),
    ((s.connAt conn).isOpen = false → exec (.connectionFailure ⟨conn, .closes⟩) s = .next s) ∧
    ((s.connAt conn).isOpen = true → ∃ t, exec (.connectionFailure ⟨conn, .closes⟩) s = .next t ∧ (t.connAt conn).isOpen = false ∧
      (t.connAt conn).buffers = [] ∧ (t.connAt conn).revocations = [] ∧ (t.connAt conn).sends = [] ∧
      (∀ c, c ≠ conn → t.connAt c = s.connAt c) ∧
      (∀ p, p ∈ t.hub.held → ∀ h ∈ p.holds, h ≠ .placement conn) ∧
      ((s.connAt conn).sends = [] → (s.connAt conn).revocations = [] → (s.connAt conn).waiting = [] →
        t.gangs = s.gangs ∧ t.teams = s.teams ∧ t.mem = s.mem ∧ t.net.counters = s.net.counters))) ∧
  (∀ (s : State) (conn buffer : Nat) (r : Revocation), (s.connAt conn).revocations.find? (fun r => r.number = buffer) = some r →
    let done := ∀ i, (s.connAt conn).published < i → i ≤ r.upTo → ∃ p, (s.connAt conn).arrived.find i = some p ∧ (p.number ≠ buffer ∨ p.target = none)
    (¬done → exec (.nunpostComplete conn buffer) s = .next s) ∧
    (done → (s.connAt conn).waiting = [] → exec (.nunpostComplete conn buffer) s =
      .next (netDone (s.mapConn conn (fun k => { k with
        revocations := k.revocations.filter (fun x => x.number ≠ buffer), waiting := [] })) r.cmd)))

/-! ### The management window and the platform -/

namespace Sys2Proof.Claims
open Sys2Proof.Machine

/-- A store that was refused leaves everything but the refused count of the function's record, which rises by one (R330). -/
def refusedFor (s : State) (f : Nat) : State := s.mapFn f (fun r => { r with refused := r.refused + 1 })

/-- The field of an icmd code's set, from ictl and iva (R331). -/
def icmdScope (r : FnRecord) (code : Nat) : Option (Nat × Option (Nat × Nat)) :=
  let ctx := (r.ictl.extractLsb' 48 16).toNat
  match code with
  | 0 => some (ctx, some (r.iva.toNat, (r.ictl.extractLsb' 0 48).toNat))
  | 1 => some (ctx, none)
  | _ => none

/-- The core and gang whose live mapping an entry is. -/
def liveOn (s : State) (ctx e : Nat) : Option (Nat × Nat) :=
  s.cores.findSome? (fun p => (p.2.mappings.find? (fun x => x.1 = ctx && x.2.1 = e)).map (fun x => (p.1, x.2.2)))

/-- A mapping entry changed. -/
def entryChanged (s : State) (ctx e : Nat) (f : MappingEntry → MappingEntry) : State :=
  s.mapHub (fun h => { h with mappings := h.mappings.update (64 * ctx + e) f })

/-- The write to icmd of a code. -/
def icmdOf (f code : Nat) : Instr := match code with | 0 => .icmdVa f | 1 => .icmdCtx f | _ => .icmdAll f

end Sys2Proof.Claims

open Sys2Proof Sys2Proof.Machine Sys2Proof.Claims in
/-- Stores to the management window. icmd starts an invalidation of its set, is refused while one is busy, and sets the not-permitted bit for
a set out of the function's reach; a slice set changes as a whole with its high half; a bias command begins a flip of an exposed region
and is refused while one is busy, and a flip to device bias ends once the snoop filters hold no line of the region; a mapping's valid bit
clears, that of a live one once the mapping is written back; RESUME by a function record reports its code; a store takes the bytes that it
names, and a writer that may not store is refused and counted (R172, R328, R330 to R332, R336, R366,
R385, R386). The model's choices: a RESUME takes no time (log 26) and gives a parked ECALL a free value (log 2), offsets no rule names
(log 18), narrow stores (log 19), who may store (log 24), stores to fields of valid records (log 55), and a removal that waits for the host
(log 89). -/
def Obligations.ManagementStoresTakeEffect : Prop :=
  (∀ (s : State) (f code : Nat), code < 3 →
    let r := s.fnAt f
    let mine := f = 0 ∨ (code ≠ 2 ∧ s.fnOf (r.ictl.extractLsb' 48 16).toNat = f)
    (r.invBusy ≠ none → exec (icmdOf f code) s = .next (refusedFor s f)) ∧
    (r.invBusy = none → ¬mine → exec (icmdOf f code) s = .next (s.mapFn f (fun x => { x with invRefused := true }))) ∧
    (r.invBusy = none → mine → (code = 0 → (r.ictl.extractLsb' 0 48) ≠ 0) → exec (icmdOf f code) s =
      .next ((s.mapFn f (fun x => { x with invBusy := some s.hub.nextInv, invRefused := false })).mapHub (fun h =>
        { h with invs := h.invs ++ [⟨h.nextInv, icmdScope r code, .fn f⟩], nextInv := h.nextInv + 1 })))) ∧
  (∀ (s : State) (f i : Nat) (v : DWord),
    exec (.placementMaskLowWrite f i v) s = .next (s.mapFn f (fun x => { x with staged := x.staged.set i v })) ∧
    (∀ low, (s.fnAt f).staged.find i = some low → v.extractLsb' 32 32 = 0 → exec (.placementMaskHighWrite f i v) s =
      .next (s.mapFn f (fun x => { x with
        sets := x.sets.set i ((v.extractLsb' 0 32) ++ low), staged := x.staged.erase i }))) ∧
    (v.extractLsb' 32 32 ≠ 0 → exec (.placementMaskHighWrite f i v) s = .next (refusedFor s 0))) ∧
  (∀ (s : State) (r : Nat) (toHost : Bool),
    let b := s.hub.bias.get .none r
    let i : Instr := if toHost then .biasToHost r else .biasToDevice r
    (r ≤ 147455 → b.exposed = true → b.busy = false → b.host ≠ toHost → exec i s =
      .next (s.mapHub (fun h => { h with bias := h.bias.set r { b with busy := true, toHost := toHost } }))) ∧
    (r ≤ 147455 → b.exposed = true → b.busy = false → b.host = toHost → exec i s = .next s) ∧
    (147455 < r ∨ b.exposed = false ∨ b.busy = true → exec i s = .next (refusedFor s 0))) ∧
  (∀ (s : State) (r : Nat),
    let b := s.hub.bias.get .none r
    (b.busy = false → exec (.biasFlipComplete r) s = .next s) ∧
    (b.busy = true → b.toHost = false → s.mem.snoop.any (fun e => e.line / 16384 = r) = true → exec (.biasFlipComplete r) s = .next s) ∧
    (b.busy = true → b.toHost = false → s.mem.snoop.any (fun e => e.line / 16384 = r) = false → s.port.waiting = [] →
      ∃ t, exec (.biasFlipComplete r) s = .next t ∧ t.hub.bias.get .none r = { b with host := false, busy := false } ∧ t.mem = s.mem) ∧
    (b.busy = true → b.toHost = true → s.port.waiting = [] →
      ∃ t, exec (.biasFlipComplete r) s = .next t ∧ t.hub.bias.get .none r = { b with host := true, busy := false } ∧ t.teams = s.teams)) ∧
  (∀ (s : State) (ctx e : Nat),
    (liveOn s ctx e = none → exec (.mappingValidClear ctx e) s =
      .next (entryChanged s ctx e (fun m => { m with valid := false, removing := false }))) ∧
    (∀ core g s1, liveOn s ctx e = some (core, g) → s.writeBackMapping ctx e g = .ok s1 → exec (.mappingValidClear ctx e) s =
      .next (entryChanged (s1.dropMapping core ctx e) ctx e (fun m => { m with valid := false, removing := false }))) ∧
    (∀ core g r s1, liveOn s ctx e = some (core, g) → s.writeBackMapping ctx e g = .error (.wait r, s1) → exec (.mappingValidClear ctx e) s =
      .next ((entryChanged s ctx e (fun m => { m with removing := true })).request r))) ∧
  (∀ (s : State) (f id : Nat), ∀ i ∈ [Instr.mgmtResume f id, .mgmtResumeKill f id],
    s.hub.held.find? (fun x => x.fn = f && x.id = id) = none →
    exec i s = .next ({ s with free := s.free + 1 }.mapFn f (fun x => { x with resumeCode := 1 }))) ∧
  (∀ (s : State) (f id q : Nat) (x : HeldFault), s.hub.held.find? (fun x => x.fn = f && x.id = id) = some x → x.holds = [.ringSlot q] →
    ∃ t, exec (.mgmtResume f id) s = .next t ∧ (t.queueAt q).slotHeld = false ∧ (t.queueAt q).readIdx = (s.queueAt q).readIdx ∧
      (t.fnAt f).resumeCode = 0 ∧ (∃ t', exec (.mgmtResumeKill f id) s = .next t' ∧ (t'.queueAt q).slotHeld = false ∧
        (t'.queueAt q).readIdx = (s.queueAt q).readIdx + 1 ∧ (t'.fnAt f).resumeCode = 0)) ∧
  (∀ (s : State) (w : MgmtWriter) (off : Nat) (v : DWord) (bytes : BitVec 8),
    (s.mayStore w off = false → exec (.mgmtRegisterWrite w off ⟨v, bytes⟩) s =
      .next (refusedFor s (match w with | .context c => s.fnOf c | _ => 0))) ∧
    exec (.mgmtRegisterWrite w off ⟨v, bytes⟩) s = exec (.mgmtRegisterWrite w off ⟨mergeBytes (s.hubDword off) v bytes, 0xFF⟩) s ∧
    (∀ q, w = .system → q < 512 → off = 8 * q → exec (.mgmtRegisterWrite w off ⟨v, 0xFF⟩) s = .next (s.mapQueue q (fun x =>
      { x with kick := if x.kick ≤ v.toNat then v.toNat else x.kick }))) ∧
    (∀ f, w = .system → f < 64 → off = 0x10000000 + 64 * f + 32 → exec (.mgmtRegisterWrite w off ⟨v, 0xFF⟩) s = .next (s.mapFn f (fun x =>
      { x with iva := v }))))

namespace Sys2Proof.Claims
open Sys2Proof.Machine

/-- The store to an island's register of a request (R392). -/
def requestOf (n : Nat) (r : BitVec 2) (i : Instr) : Prop :=
  (r = 0 ∧ i = .islandRequestNominal n) ∨ (r = 1 ∧ i = .islandRequestHalf n) ∨ (r = 2 ∧ i = .islandRequestQuarter n) ∨
    (r = 3 ∧ i = .islandRequestGate n)

/-- What a device holds after a power-on reset but for its measurements and what lies outside it. -/
def asReset (t : State) : Prop :=
  t.teams = [] ∧ t.gangs = [] ∧ t.cores = [] ∧ t.slices = [] ∧ t.mem.dram = [] ∧ t.mem.copies = [] ∧ t.mem.dir = [] ∧ t.mem.snoop = [] ∧
    t.hub = State.reset.hub ∧ t.net = State.reset.net ∧ t.port = State.reset.port ∧ t.tick = 0 ∧ t.cycles = 0

/-- The health word (R391): state, class, index and syndrome of the failing block. -/
def health (state : BitVec 2) (cls : BitVec 6) (index : BitVec 16) (syndrome : BitVec 32) : DWord :=
  state ++ (cls ++ ((0 : BitVec 8) ++ (index ++ syndrome)))

/-- `t` is the safe state that a failure leaves of `s` (R13, R391): the health word names the failing block, no island is started, and memory and
teams stay as they are. -/
def safeState (s t : State) (f : TestFailure) : Prop :=
  t.platform.health = health 2 f.cls f.index f.syndrome ∧ t.platform.selfTest = false ∧ t.platform.safe = true ∧ t.platform.retesting = none ∧
    (∀ n, n < 512 → (t.platform.islands.get .none n).gated = true) ∧ t.teams = s.teams ∧ t.mem = s.mem

end Sys2Proof.Claims

open Sys2Proof Sys2Proof.Machine Sys2Proof.Claims in
/-- The platform. A request sets an island's operating point, and gates it where R16 allows; work wakes it, with the fabric of its die; the
management block's limit, on the matrix engines first, is logged, which raises source 66; in the safe state no island is started; a retest
that passes clears suspicion, and self-test that fails leaves the safe state with the failing block in the health word;
an attestation report is written and DONE set; power-on reset empties the device and measures the accepted images; a Function Level Reset
leaves no host queue and no context of its function valid; a corrected error is logged and changes nothing else, another poisons its word
(R13, R15 to R17, R175, R389 to R394). The model's choices: when islands are gated and wake (log 51), a retest that fails (log 52),
DRAM after a reset (log 53), stores while a report is made (log 54), the silent end at a Function Level Reset (log 59), which arrays are
struck (log 32), functions and keys without a body (log 13), and the form of an image (log 107). -/
def Obligations.PlatformStepsTakeEffect : Prop :=
  (∀ (s : State) (n : Nat) (r : BitVec 2) (i : Instr), requestOf n r i → n < 480 → r ≠ 3 → s.platform.safe = false → ∃ t, exec i s = .next t ∧
    (t.platform.islands.get .none n).request = r ∧ (t.platform.islands.get .none n).gated = false ∧ t.teams = s.teams ∧ t.mem = s.mem ∧
    t.hub = s.hub) ∧
  (∀ (s : State) (n : Nat), n < 192 → s.residents n = [] → (s.coreAt n).hasDirty = false → s.platform.safe = false → ∃ t, exec (.islandRequestGate n) s = .next t ∧
    (t.platform.islands.get .none n).gated = true ∧ (t.coreAt n).l1 = [] ∧ (t.coreAt n).tlb = [] ∧ t.teams = s.teams ∧ t.mem = s.mem) ∧
  (∀ (s : State) (n : Nat) (r : BitVec 2) (i : Instr), requestOf n r i → (512 ≤ n ∨ (480 ≤ n ∧ n < 508 ∧ (r = 1 ∨ r = 2))) →
    exec i s = .next (refusedFor s 0)) ∧
  (∀ (s : State) (n : Nat), (s.platform.safe = true → exec (.islandWake n) s = .next s) ∧
    (s.platform.safe = false → ∃ t, exec (.islandWake n) s = .next t ∧ (t.platform.islands.get .none n).gated = false ∧
      (t.platform.islands.get .none n).request = (s.platform.islands.get .none n).request ∧ t.teams = s.teams ∧ t.mem = s.mem ∧
      (n < 192 → (t.platform.islands.get .none (508 + n / 48)).gated = false) ∧
      (384 ≤ n → n < 480 → (t.platform.islands.get .none (508 + (n - 384) / 24)).gated = false))) ∧
  (∀ (s : State) (n : Nat) (p : BitVec 2), n < 512 → p ≠ 3 → (s.platform.islands.get .none n).limit ≠ p →
    ((192 ≤ n ∧ n < 384) ∨ ∀ i, i < 192 → (s.platform.islands.get .none (192 + i)).gated = true ∨
      p.toNat ≤ (s.platform.islands.get .none (192 + i)).limit.toNat) →
    ∃ t, exec (.thermalThrottle n p) s = .next t ∧ (t.platform.islands.get .none n).limit = p ∧
      t.platform.log = s.platform.log ++ [.throttle n p] ∧ t.platform.raised = s.platform.raised ++ [66] ∧ t.teams = s.teams ∧ t.mem = s.mem) ∧
  (∀ (s : State) (core : Nat), (s.coreAt core).suspect = true → s.platform.safe = false →
    (s.platform.retesting = none ∨ s.platform.retesting = some core) →
    (∃ t, exec (.coreRetest core none) s = .next t ∧ (t.coreAt core).suspect = false ∧ t.platform.health = health 1 0 0 0 ∧
      t.platform.safe = false) ∧
    (∀ f, ∃ t, exec (.coreRetest core (some f)) s = .next t ∧ safeState s t f)) ∧
  (∀ (s : State), s.platform.selfTest = true →
    exec (.selfTestComplete none) s = .next (s.mapPlatform (fun p => { p with health := health 1 0 0 0, selfTest := false })) ∧
    (∀ f, ∃ t, exec (.selfTestComplete (some f)) s = .next t ∧ safeState s t f)) ∧
  (∀ (s : State) (pa : Nat),
    (s.platform.report = none → pa % 4096 = 0 → pa + s.platform.reportBytes.length ≤ dramTop → exec (.attestationRequest pa) s = .next (s.mapPlatform (fun p =>
      { p with report := some pa, done := false }))) ∧
    (s.platform.report ≠ none ∨ pa % 4096 ≠ 0 ∨ dramTop < pa + s.platform.reportBytes.length → exec (.attestationRequest pa) s = .next (refusedFor s 0)) ∧
    (s.platform.report = some pa → s.mem.snoop = [] → pa + s.platform.reportBytes.length ≤ dramTop → exec .attestationReportDone s =
      .next (((lineRuns pa s.platform.reportBytes.length).foldl (fun (s1 : State) r =>
        s1.homeWrite (pa + r.1) ((s.platform.reportBytes.drop r.1).take r.2)) s).mapPlatform (fun p => { p with report := none, done := true }))) ∧
    (s.platform.report = none → exec .attestationReportDone s = .next s)) ∧
  (∀ (s : State) (images : List FirmwareImage), ∃ t, exec (.powerOnReset images) s = .next t ∧ asReset t ∧ t.mem.host = s.mem.host ∧
    t.platform.measurements = (images.filter imageAccepted).map (fun i =>
      (BitVec.ofNat 32 (imageComponent i), BitVec.ofNat 32 (imageVersion i), imageDigest i)) ∧
    (t.platform.safe = true ↔ ∃ i ∈ images, imageAccepted i = false)) ∧
  (∀ (s : State) (f : Nat), (f = 0 ∨ 63 < f → exec (.functionLevelReset f) s = .next s) ∧
    (0 < f → f ≤ 63 → ∃ t, exec (.functionLevelReset f) s = .next t ∧
      (∀ q, q / 512 = f → (t.queueAt q).valid = false ∧ (t.queueAt q).conts = []) ∧ (∀ c ∈ s.ctxsOf f, (t.ctxAt c).valid = false) ∧
      (s.hub.ctxs = [] → s.hub.held = [] → (∀ q, q / 512 ≠ f → t.queueAt q = s.queueAt q) ∧ t.teams = s.teams ∧ t.mem = s.mem))) ∧
  (∀ (s : State) (site : ErrorSite), exec (.uncorrectableError site true) s =
    .next (s.mapPlatform (fun p => { p with log := p.log ++ [.corrected site], raised := p.raised ++ [66] }))) ∧
  (∀ (s : State) (pa : Nat), ∃ t, exec (.uncorrectableError (.word pa) false) s = .next t ∧ t.mem.poisoned pa 1 = true ∧
    (∀ a, t.mem.byte a = s.mem.byte a) ∧ t.teams = s.teams)

/-! ### An invariant of every step -/

namespace Sys2Proof.Claims
open Sys2Proof.Machine

/-- DRAM and host memory stand in the one canonical form: addresses strictly rise, and no listed byte is what an unlisted one reads as. -/
def canonical (s : State) : Prop := s.mem.dram.wf = true ∧ s.mem.host.wf = true

end Sys2Proof.Claims

open Sys2Proof Sys2Proof.Machine Sys2Proof.Claims in
/-- Reset leaves memory in canonical form. What a byte that nothing has written reads as is the model's choice (log 10). -/
def Obligations.ResetMemoryIsCanonical : Prop := canonical State.reset

open Sys2Proof Sys2Proof.Machine Sys2Proof.Claims in
/-- Every step, of whatever instruction or agent, keeps DRAM and host memory in canonical form, so that equal memories are equal data. The
canonical form is the model's (log 10). -/
def Obligations.EveryStepKeepsMemoryCanonical : Prop :=
  ∀ s t : State, canonical s → step s = .next t → canonical t
end

