-- ==== Sys2Proof/Laws/Maps.lean ====
section
/-! SUPPORT. Laws of keyed collections: a read after a write, the canonical form that every write keeps, and bytes of memory. -/
namespace Sys2Proof.Machine

variable {α : Type}

/-! ### Reads after writes -/

theorem Map.get_set (m : Map α) (d v : α) (n k : Nat) : (m.set n v).get d k = if k = n then v else m.get d k := by
  induction m with
  | nil =>
    by_cases h : k = n
    · simp [Map.set, Map.get, h]
    · simp [Map.set, Map.get, h, Ne.symm h]
  | cons p r ih =>
    obtain ⟨a, w⟩ := p
    by_cases h : k = n
    · subst h
      simp only [Map.set] at ih ⊢
      split
      · simp [Map.get]
      · split
        · simp [Map.get]
        · rename_i h; simp [Map.get, ih, Ne.symm h]
    · have h' : n ≠ k := fun e => h e.symm
      simp only [Map.set, h, if_false] at ih ⊢
      split
      · simp [Map.get, h']
      · split
        · subst_vars; simp [Map.get, h']
        · simp [Map.get, ih]

@[simp] theorem Map.get_set_self (m : Map α) (d v : α) (n : Nat) : (m.set n v).get d n = v := by simp [Map.get_set]

theorem Map.get_set_ne (m : Map α) (d v : α) {n k : Nat} (h : k ≠ n) : (m.set n v).get d k = m.get d k := by
  simp [Map.get_set, h]

theorem Map.find_set (m : Map α) (v : α) (n k : Nat) : (m.set n v).find k = if k = n then some v else m.find k := by
  induction m with
  | nil => by_cases h : k = n <;> simp [Map.set, Map.find, h]; exact fun h' => absurd h'.symm h
  | cons p r ih =>
    obtain ⟨a, w⟩ := p
    by_cases h : k = n
    · subst h
      simp only [Map.set] at ih ⊢
      split
      · simp [Map.find]
      · split
        · simp [Map.find]
        · rename_i h; simp [Map.find, ih, Ne.symm h]
    · have h' : n ≠ k := fun e => h e.symm
      simp only [Map.set, h, if_false] at ih ⊢
      split
      · simp [Map.find, h']
      · split
        · subst_vars; simp [Map.find, h']
        · simp [Map.find, ih]

/-- The second of two writes of one key stands. -/
@[simp] theorem Map.set_set (m : Map α) (n : Nat) (v w : α) : (m.set n v).set n w = m.set n w := by
  induction m with
  | nil => simp [Map.set]
  | cons p r ih =>
    obtain ⟨a, x⟩ := p
    simp only [Map.set]
    split
    · simp [Map.set]
    · split
      · simp [Map.set]
      · simp_all [Map.set]

theorem Map.get_erase (m : Map α) (d : α) (n k : Nat) : (m.erase n).get d k = if k = n then d else m.get d k := by
  induction m with
  | nil => simp [Map.erase, Map.get]
  | cons p r ih =>
    obtain ⟨a, w⟩ := p
    simp only [Map.erase, List.filter_cons, Map.get] at ih ⊢
    by_cases h : a = n
    · subst h
      simp only [ne_eq, not_true_eq_false, decide_false, Bool.false_eq_true, if_false, ih]
      by_cases hk : k = a
      · simp [hk]
      · simp [hk, Ne.symm hk]
    · simp only [ne_eq, h, not_false_eq_true, decide_true, if_true, Map.get, ih]
      by_cases hk : a = k
      · subst hk; simp [h]
      · simp [hk]

theorem Map.get_put [DecidableEq α] (m : Map α) (d v : α) (n k : Nat) :
    (m.put d n v).get d k = if k = n then v else m.get d k := by
  unfold Map.put
  split
  · simp_all [Map.get_erase]
  · exact Map.get_set m d v n k

@[simp] theorem Map.get_put_self [DecidableEq α] (m : Map α) (d v : α) (n : Nat) : (m.put d n v).get d n = v := by
  simp [Map.get_put]

/-! ### The canonical form -/

theorem Map.all_key_set (m : Map α) (n : Nat) (v : α) (p : Nat → Bool) :
    (m.set n v).all (fun x => p x.1) = (p n && m.all (fun x => p x.1)) := by
  induction m with
  | nil => simp [Map.set]
  | cons q r ih =>
    obtain ⟨a, w⟩ := q
    simp only [Map.set]
    split
    · simp
    · split
      · subst_vars; simp
      · simp only [List.all_cons, ih]
        cases p a <;> cases p n <;> simp

theorem Map.sorted_set (m : Map α) (n : Nat) (v : α) (h : m.sorted) : (m.set n v).sorted := by
  induction m with
  | nil => simp [Map.set, Map.sorted]
  | cons q r ih =>
    obtain ⟨a, w⟩ := q
    simp only [Map.sorted, Bool.and_eq_true] at h
    simp only [Map.set]
    split
    · rename_i hn
      simp only [Map.sorted, List.all_cons, Bool.and_eq_true, decide_eq_true_eq]
      refine ⟨⟨hn, ?_⟩, ?_⟩
      · simp only [List.all_eq_true, decide_eq_true_eq] at h ⊢
        exact fun x hx => Nat.lt_trans hn (h.1 x hx)
      · simpa using h
    · split
      · subst_vars; simpa [Map.sorted] using h
      · rename_i h1 h2
        simp only [Map.sorted, Bool.and_eq_true]
        refine ⟨?_, ih h.2⟩
        rw [Map.all_key_set r n v (fun k => decide (a < k))]
        simp only [Bool.and_eq_true, decide_eq_true_eq]
        exact ⟨by omega, h.1⟩

theorem Map.sorted_filter (m : Map α) (p : Nat × α → Bool) (h : m.sorted) : Map.sorted (m.filter p) := by
  induction m with
  | nil => simp [Map.sorted]
  | cons q r ih =>
    obtain ⟨a, w⟩ := q
    simp only [Map.sorted, Bool.and_eq_true] at h
    simp only [List.filter_cons]
    split
    · simp only [Map.sorted, Bool.and_eq_true]
      refine ⟨?_, ih h.2⟩
      simp only [List.all_eq_true, List.mem_filter] at h ⊢
      exact fun x hx => h.1 x hx.1
    · exact ih h.2

theorem Map.mem_set (m : Map α) (n : Nat) (v : α) (x : Nat × α) (h : x ∈ m.set n v) : x = (n, v) ∨ x ∈ m := by
  induction m with
  | nil => simpa [Map.set] using h
  | cons q r ih =>
    obtain ⟨a, w⟩ := q
    simp only [Map.set] at h
    split at h
    · simpa using h
    · split at h
      · exact (List.mem_cons.mp h).imp id (List.mem_cons_of_mem _)
      · rcases List.mem_cons.mp h with h | h
        · exact Or.inr (h ▸ List.mem_cons_self)
        · exact (ih h).imp id (List.mem_cons_of_mem _)

theorem Map.wf_nil [DecidableEq α] (d : α) : Map.wf d ([] : Map α) := by simp [Map.wf, Map.sorted]

/-- The canonical write keeps the canonical form. -/
theorem Map.wf_put [DecidableEq α] (d : α) (m : Map α) (n : Nat) (v : α) (h : m.wf d) : Map.wf d (m.put d n v) := by
  simp only [Map.wf, Bool.and_eq_true, List.all_eq_true, decide_eq_true_eq] at h ⊢
  unfold Map.put
  split
  · exact ⟨Map.sorted_filter m _ h.1, fun x hx => h.2 x (List.mem_filter.mp hx).1⟩
  · rename_i hv
    refine ⟨Map.sorted_set m n v h.1, fun x hx => ?_⟩
    rcases Map.mem_set m n v x hx with rfl | hx
    · exact hv
    · exact h.2 x hx

/-! ### Memories -/

theorem Memory.wf_nil : Memory.wf [] := Map.wf_nil 0

theorem Memory.wf_put (m : Memory) (a : Nat) (b : Byte) (h : m.wf) : (m.put a b).wf := Map.wf_put 0 m a b h

theorem Memory.wf_write (bs : List Byte) (m : Memory) (a : Nat) (h : m.wf) : (m.write a bs).wf := by
  induction bs generalizing m a with
  | nil => exact h
  | cons b r ih => exact ih _ _ (Memory.wf_put m a b h)

/-- A byte reads as it was written; every other byte reads as before. -/
theorem Memory.byte_put (m : Memory) (a k : Nat) (b : Byte) : (m.put a b).byte k = if k = a then b else m.byte k :=
  Map.get_put m 0 b a k

theorem Memory.byte_write (bs : List Byte) (m : Memory) (a k : Nat) :
    (m.write a bs).byte k = if a ≤ k ∧ k < a + bs.length then bs.getD (k - a) 0 else m.byte k := by
  induction bs generalizing m a with
  | nil => rw [if_neg (by simp only [List.length_nil]; omega)]; rfl
  | cons b r ih =>
    simp only [Memory.write, ih, Memory.byte_put, List.length_cons]
    by_cases h1 : k = a
    · subst h1; rw [if_neg (by omega)]; simp
    · by_cases h2 : a + 1 ≤ k ∧ k < a + 1 + r.length
      · rw [if_pos h2, if_pos (by omega), show k - a = (k - (a + 1)) + 1 by omega]; rfl
      · rw [if_neg h2, if_neg h1, if_neg (by omega)]

/-- The bytes written are the bytes read. -/
theorem Memory.read_write (m : Memory) (a : Nat) (bs : List Byte) : (m.write a bs).read a bs.length = bs := by
  apply List.ext_getElem
  · simp [Memory.read]
  · intro i h1 h2
    simp [Memory.read, Memory.byte_write, h2]

end Sys2Proof.Machine
end

