-- ==== Sys2Proof/Laws/State.lean ====
section
/-! SUPPORT. What each update of a part of the state leaves: one lemma per update and field, and what an accessor reads after an update of
its own part. -/
namespace Sys2Proof.Machine

variable (s : State)

/-! ### State.setTeamAt -/

@[simp] theorem State.setTeamAt_agenda (u : Nat) (t : Team) : (s.setTeamAt u t).agenda = s.agenda := rfl
@[simp] theorem State.setTeamAt_cur (u : Nat) (t : Team) : (s.setTeamAt u t).cur = s.cur := rfl
@[simp] theorem State.setTeamAt_free (u : Nat) (t : Team) : (s.setTeamAt u t).free = s.free := rfl
@[simp] theorem State.setTeamAt_tick (u : Nat) (t : Team) : (s.setTeamAt u t).tick = s.tick := rfl
@[simp] theorem State.setTeamAt_cycles (u : Nat) (t : Team) : (s.setTeamAt u t).cycles = s.cycles := rfl
@[simp] theorem State.setTeamAt_gangs (u : Nat) (t : Team) : (s.setTeamAt u t).gangs = s.gangs := rfl
@[simp] theorem State.setTeamAt_cores (u : Nat) (t : Team) : (s.setTeamAt u t).cores = s.cores := rfl
@[simp] theorem State.setTeamAt_slices (u : Nat) (t : Team) : (s.setTeamAt u t).slices = s.slices := rfl
@[simp] theorem State.setTeamAt_mem (u : Nat) (t : Team) : (s.setTeamAt u t).mem = s.mem := rfl
@[simp] theorem State.setTeamAt_hub (u : Nat) (t : Team) : (s.setTeamAt u t).hub = s.hub := rfl
@[simp] theorem State.setTeamAt_net (u : Nat) (t : Team) : (s.setTeamAt u t).net = s.net := rfl
@[simp] theorem State.setTeamAt_port (u : Nat) (t : Team) : (s.setTeamAt u t).port = s.port := rfl
@[simp] theorem State.setTeamAt_platform (u : Nat) (t : Team) : (s.setTeamAt u t).platform = s.platform := rfl

/-! ### State.setTeam -/

@[simp] theorem State.setTeam_agenda (t : Team) : (s.setTeam t).agenda = s.agenda := rfl
@[simp] theorem State.setTeam_cur (t : Team) : (s.setTeam t).cur = s.cur := rfl
@[simp] theorem State.setTeam_free (t : Team) : (s.setTeam t).free = s.free := rfl
@[simp] theorem State.setTeam_tick (t : Team) : (s.setTeam t).tick = s.tick := rfl
@[simp] theorem State.setTeam_cycles (t : Team) : (s.setTeam t).cycles = s.cycles := rfl
@[simp] theorem State.setTeam_gangs (t : Team) : (s.setTeam t).gangs = s.gangs := rfl
@[simp] theorem State.setTeam_cores (t : Team) : (s.setTeam t).cores = s.cores := rfl
@[simp] theorem State.setTeam_slices (t : Team) : (s.setTeam t).slices = s.slices := rfl
@[simp] theorem State.setTeam_mem (t : Team) : (s.setTeam t).mem = s.mem := rfl
@[simp] theorem State.setTeam_hub (t : Team) : (s.setTeam t).hub = s.hub := rfl
@[simp] theorem State.setTeam_net (t : Team) : (s.setTeam t).net = s.net := rfl
@[simp] theorem State.setTeam_port (t : Team) : (s.setTeam t).port = s.port := rfl
@[simp] theorem State.setTeam_platform (t : Team) : (s.setTeam t).platform = s.platform := rfl

/-! ### State.mapTeam -/

@[simp] theorem State.mapTeam_agenda (u : Nat) (f : Team → Team) : (s.mapTeam u f).agenda = s.agenda := rfl
@[simp] theorem State.mapTeam_cur (u : Nat) (f : Team → Team) : (s.mapTeam u f).cur = s.cur := rfl
@[simp] theorem State.mapTeam_free (u : Nat) (f : Team → Team) : (s.mapTeam u f).free = s.free := rfl
@[simp] theorem State.mapTeam_tick (u : Nat) (f : Team → Team) : (s.mapTeam u f).tick = s.tick := rfl
@[simp] theorem State.mapTeam_cycles (u : Nat) (f : Team → Team) : (s.mapTeam u f).cycles = s.cycles := rfl
@[simp] theorem State.mapTeam_gangs (u : Nat) (f : Team → Team) : (s.mapTeam u f).gangs = s.gangs := rfl
@[simp] theorem State.mapTeam_cores (u : Nat) (f : Team → Team) : (s.mapTeam u f).cores = s.cores := rfl
@[simp] theorem State.mapTeam_slices (u : Nat) (f : Team → Team) : (s.mapTeam u f).slices = s.slices := rfl
@[simp] theorem State.mapTeam_mem (u : Nat) (f : Team → Team) : (s.mapTeam u f).mem = s.mem := rfl
@[simp] theorem State.mapTeam_hub (u : Nat) (f : Team → Team) : (s.mapTeam u f).hub = s.hub := rfl
@[simp] theorem State.mapTeam_net (u : Nat) (f : Team → Team) : (s.mapTeam u f).net = s.net := rfl
@[simp] theorem State.mapTeam_port (u : Nat) (f : Team → Team) : (s.mapTeam u f).port = s.port := rfl
@[simp] theorem State.mapTeam_platform (u : Nat) (f : Team → Team) : (s.mapTeam u f).platform = s.platform := rfl

/-! ### State.setRegs -/

@[simp] theorem State.setRegs_agenda (r : TeamRegs) : (s.setRegs r).agenda = s.agenda := rfl
@[simp] theorem State.setRegs_cur (r : TeamRegs) : (s.setRegs r).cur = s.cur := rfl
@[simp] theorem State.setRegs_free (r : TeamRegs) : (s.setRegs r).free = s.free := rfl
@[simp] theorem State.setRegs_tick (r : TeamRegs) : (s.setRegs r).tick = s.tick := rfl
@[simp] theorem State.setRegs_cycles (r : TeamRegs) : (s.setRegs r).cycles = s.cycles := rfl
@[simp] theorem State.setRegs_gangs (r : TeamRegs) : (s.setRegs r).gangs = s.gangs := rfl
@[simp] theorem State.setRegs_cores (r : TeamRegs) : (s.setRegs r).cores = s.cores := rfl
@[simp] theorem State.setRegs_slices (r : TeamRegs) : (s.setRegs r).slices = s.slices := rfl
@[simp] theorem State.setRegs_mem (r : TeamRegs) : (s.setRegs r).mem = s.mem := rfl
@[simp] theorem State.setRegs_hub (r : TeamRegs) : (s.setRegs r).hub = s.hub := rfl
@[simp] theorem State.setRegs_net (r : TeamRegs) : (s.setRegs r).net = s.net := rfl
@[simp] theorem State.setRegs_port (r : TeamRegs) : (s.setRegs r).port = s.port := rfl
@[simp] theorem State.setRegs_platform (r : TeamRegs) : (s.setRegs r).platform = s.platform := rfl

/-! ### State.setS -/

@[simp] theorem State.setS_agenda (n : Nat) (x : DWord) : (s.setS n x).agenda = s.agenda := rfl
@[simp] theorem State.setS_cur (n : Nat) (x : DWord) : (s.setS n x).cur = s.cur := rfl
@[simp] theorem State.setS_free (n : Nat) (x : DWord) : (s.setS n x).free = s.free := rfl
@[simp] theorem State.setS_tick (n : Nat) (x : DWord) : (s.setS n x).tick = s.tick := rfl
@[simp] theorem State.setS_cycles (n : Nat) (x : DWord) : (s.setS n x).cycles = s.cycles := rfl
@[simp] theorem State.setS_gangs (n : Nat) (x : DWord) : (s.setS n x).gangs = s.gangs := rfl
@[simp] theorem State.setS_cores (n : Nat) (x : DWord) : (s.setS n x).cores = s.cores := rfl
@[simp] theorem State.setS_slices (n : Nat) (x : DWord) : (s.setS n x).slices = s.slices := rfl
@[simp] theorem State.setS_mem (n : Nat) (x : DWord) : (s.setS n x).mem = s.mem := rfl
@[simp] theorem State.setS_hub (n : Nat) (x : DWord) : (s.setS n x).hub = s.hub := rfl
@[simp] theorem State.setS_net (n : Nat) (x : DWord) : (s.setS n x).net = s.net := rfl
@[simp] theorem State.setS_port (n : Nat) (x : DWord) : (s.setS n x).port = s.port := rfl
@[simp] theorem State.setS_platform (n : Nat) (x : DWord) : (s.setS n x).platform = s.platform := rfl

/-! ### State.mapGang -/

@[simp] theorem State.mapGang_agenda (g : Nat) (f : Gang → Gang) : (s.mapGang g f).agenda = s.agenda := rfl
@[simp] theorem State.mapGang_cur (g : Nat) (f : Gang → Gang) : (s.mapGang g f).cur = s.cur := rfl
@[simp] theorem State.mapGang_free (g : Nat) (f : Gang → Gang) : (s.mapGang g f).free = s.free := rfl
@[simp] theorem State.mapGang_tick (g : Nat) (f : Gang → Gang) : (s.mapGang g f).tick = s.tick := rfl
@[simp] theorem State.mapGang_cycles (g : Nat) (f : Gang → Gang) : (s.mapGang g f).cycles = s.cycles := rfl
@[simp] theorem State.mapGang_teams (g : Nat) (f : Gang → Gang) : (s.mapGang g f).teams = s.teams := rfl
@[simp] theorem State.mapGang_cores (g : Nat) (f : Gang → Gang) : (s.mapGang g f).cores = s.cores := rfl
@[simp] theorem State.mapGang_slices (g : Nat) (f : Gang → Gang) : (s.mapGang g f).slices = s.slices := rfl
@[simp] theorem State.mapGang_mem (g : Nat) (f : Gang → Gang) : (s.mapGang g f).mem = s.mem := rfl
@[simp] theorem State.mapGang_hub (g : Nat) (f : Gang → Gang) : (s.mapGang g f).hub = s.hub := rfl
@[simp] theorem State.mapGang_net (g : Nat) (f : Gang → Gang) : (s.mapGang g f).net = s.net := rfl
@[simp] theorem State.mapGang_port (g : Nat) (f : Gang → Gang) : (s.mapGang g f).port = s.port := rfl
@[simp] theorem State.mapGang_platform (g : Nat) (f : Gang → Gang) : (s.mapGang g f).platform = s.platform := rfl

/-! ### State.mapDispatch -/

@[simp] theorem State.mapDispatch_agenda (d : Nat) (f : Dispatch → Dispatch) : (s.mapDispatch d f).agenda = s.agenda := rfl
@[simp] theorem State.mapDispatch_cur (d : Nat) (f : Dispatch → Dispatch) : (s.mapDispatch d f).cur = s.cur := rfl
@[simp] theorem State.mapDispatch_free (d : Nat) (f : Dispatch → Dispatch) : (s.mapDispatch d f).free = s.free := rfl
@[simp] theorem State.mapDispatch_tick (d : Nat) (f : Dispatch → Dispatch) : (s.mapDispatch d f).tick = s.tick := rfl
@[simp] theorem State.mapDispatch_cycles (d : Nat) (f : Dispatch → Dispatch) : (s.mapDispatch d f).cycles = s.cycles := rfl
@[simp] theorem State.mapDispatch_teams (d : Nat) (f : Dispatch → Dispatch) : (s.mapDispatch d f).teams = s.teams := rfl
@[simp] theorem State.mapDispatch_gangs (d : Nat) (f : Dispatch → Dispatch) : (s.mapDispatch d f).gangs = s.gangs := rfl
@[simp] theorem State.mapDispatch_cores (d : Nat) (f : Dispatch → Dispatch) : (s.mapDispatch d f).cores = s.cores := rfl
@[simp] theorem State.mapDispatch_slices (d : Nat) (f : Dispatch → Dispatch) : (s.mapDispatch d f).slices = s.slices := rfl
@[simp] theorem State.mapDispatch_mem (d : Nat) (f : Dispatch → Dispatch) : (s.mapDispatch d f).mem = s.mem := rfl
@[simp] theorem State.mapDispatch_net (d : Nat) (f : Dispatch → Dispatch) : (s.mapDispatch d f).net = s.net := rfl
@[simp] theorem State.mapDispatch_port (d : Nat) (f : Dispatch → Dispatch) : (s.mapDispatch d f).port = s.port := rfl
@[simp] theorem State.mapDispatch_platform (d : Nat) (f : Dispatch → Dispatch) : (s.mapDispatch d f).platform = s.platform := rfl

/-! ### State.mapCore -/

@[simp] theorem State.mapCore_agenda (c : Nat) (f : Core → Core) : (s.mapCore c f).agenda = s.agenda := rfl
@[simp] theorem State.mapCore_cur (c : Nat) (f : Core → Core) : (s.mapCore c f).cur = s.cur := rfl
@[simp] theorem State.mapCore_free (c : Nat) (f : Core → Core) : (s.mapCore c f).free = s.free := rfl
@[simp] theorem State.mapCore_tick (c : Nat) (f : Core → Core) : (s.mapCore c f).tick = s.tick := rfl
@[simp] theorem State.mapCore_cycles (c : Nat) (f : Core → Core) : (s.mapCore c f).cycles = s.cycles := rfl
@[simp] theorem State.mapCore_teams (c : Nat) (f : Core → Core) : (s.mapCore c f).teams = s.teams := rfl
@[simp] theorem State.mapCore_gangs (c : Nat) (f : Core → Core) : (s.mapCore c f).gangs = s.gangs := rfl
@[simp] theorem State.mapCore_slices (c : Nat) (f : Core → Core) : (s.mapCore c f).slices = s.slices := rfl
@[simp] theorem State.mapCore_mem (c : Nat) (f : Core → Core) : (s.mapCore c f).mem = s.mem := rfl
@[simp] theorem State.mapCore_hub (c : Nat) (f : Core → Core) : (s.mapCore c f).hub = s.hub := rfl
@[simp] theorem State.mapCore_net (c : Nat) (f : Core → Core) : (s.mapCore c f).net = s.net := rfl
@[simp] theorem State.mapCore_port (c : Nat) (f : Core → Core) : (s.mapCore c f).port = s.port := rfl
@[simp] theorem State.mapCore_platform (c : Nat) (f : Core → Core) : (s.mapCore c f).platform = s.platform := rfl

/-! ### State.mapSlice -/

@[simp] theorem State.mapSlice_agenda (c : Nat) (f : Slice → Slice) : (s.mapSlice c f).agenda = s.agenda := rfl
@[simp] theorem State.mapSlice_cur (c : Nat) (f : Slice → Slice) : (s.mapSlice c f).cur = s.cur := rfl
@[simp] theorem State.mapSlice_free (c : Nat) (f : Slice → Slice) : (s.mapSlice c f).free = s.free := rfl
@[simp] theorem State.mapSlice_tick (c : Nat) (f : Slice → Slice) : (s.mapSlice c f).tick = s.tick := rfl
@[simp] theorem State.mapSlice_cycles (c : Nat) (f : Slice → Slice) : (s.mapSlice c f).cycles = s.cycles := rfl
@[simp] theorem State.mapSlice_teams (c : Nat) (f : Slice → Slice) : (s.mapSlice c f).teams = s.teams := rfl
@[simp] theorem State.mapSlice_gangs (c : Nat) (f : Slice → Slice) : (s.mapSlice c f).gangs = s.gangs := rfl
@[simp] theorem State.mapSlice_cores (c : Nat) (f : Slice → Slice) : (s.mapSlice c f).cores = s.cores := rfl
@[simp] theorem State.mapSlice_mem (c : Nat) (f : Slice → Slice) : (s.mapSlice c f).mem = s.mem := rfl
@[simp] theorem State.mapSlice_hub (c : Nat) (f : Slice → Slice) : (s.mapSlice c f).hub = s.hub := rfl
@[simp] theorem State.mapSlice_net (c : Nat) (f : Slice → Slice) : (s.mapSlice c f).net = s.net := rfl
@[simp] theorem State.mapSlice_port (c : Nat) (f : Slice → Slice) : (s.mapSlice c f).port = s.port := rfl
@[simp] theorem State.mapSlice_platform (c : Nat) (f : Slice → Slice) : (s.mapSlice c f).platform = s.platform := rfl

/-! ### State.mapCtx -/

@[simp] theorem State.mapCtx_agenda (c : Nat) (f : CtxRecord → CtxRecord) : (s.mapCtx c f).agenda = s.agenda := rfl
@[simp] theorem State.mapCtx_cur (c : Nat) (f : CtxRecord → CtxRecord) : (s.mapCtx c f).cur = s.cur := rfl
@[simp] theorem State.mapCtx_free (c : Nat) (f : CtxRecord → CtxRecord) : (s.mapCtx c f).free = s.free := rfl
@[simp] theorem State.mapCtx_tick (c : Nat) (f : CtxRecord → CtxRecord) : (s.mapCtx c f).tick = s.tick := rfl
@[simp] theorem State.mapCtx_cycles (c : Nat) (f : CtxRecord → CtxRecord) : (s.mapCtx c f).cycles = s.cycles := rfl
@[simp] theorem State.mapCtx_teams (c : Nat) (f : CtxRecord → CtxRecord) : (s.mapCtx c f).teams = s.teams := rfl
@[simp] theorem State.mapCtx_gangs (c : Nat) (f : CtxRecord → CtxRecord) : (s.mapCtx c f).gangs = s.gangs := rfl
@[simp] theorem State.mapCtx_cores (c : Nat) (f : CtxRecord → CtxRecord) : (s.mapCtx c f).cores = s.cores := rfl
@[simp] theorem State.mapCtx_slices (c : Nat) (f : CtxRecord → CtxRecord) : (s.mapCtx c f).slices = s.slices := rfl
@[simp] theorem State.mapCtx_mem (c : Nat) (f : CtxRecord → CtxRecord) : (s.mapCtx c f).mem = s.mem := rfl
@[simp] theorem State.mapCtx_net (c : Nat) (f : CtxRecord → CtxRecord) : (s.mapCtx c f).net = s.net := rfl
@[simp] theorem State.mapCtx_port (c : Nat) (f : CtxRecord → CtxRecord) : (s.mapCtx c f).port = s.port := rfl
@[simp] theorem State.mapCtx_platform (c : Nat) (f : CtxRecord → CtxRecord) : (s.mapCtx c f).platform = s.platform := rfl

/-! ### State.mapFn -/

@[simp] theorem State.mapFn_agenda (n : Nat) (f : FnRecord → FnRecord) : (s.mapFn n f).agenda = s.agenda := rfl
@[simp] theorem State.mapFn_cur (n : Nat) (f : FnRecord → FnRecord) : (s.mapFn n f).cur = s.cur := rfl
@[simp] theorem State.mapFn_free (n : Nat) (f : FnRecord → FnRecord) : (s.mapFn n f).free = s.free := rfl
@[simp] theorem State.mapFn_tick (n : Nat) (f : FnRecord → FnRecord) : (s.mapFn n f).tick = s.tick := rfl
@[simp] theorem State.mapFn_cycles (n : Nat) (f : FnRecord → FnRecord) : (s.mapFn n f).cycles = s.cycles := rfl
@[simp] theorem State.mapFn_teams (n : Nat) (f : FnRecord → FnRecord) : (s.mapFn n f).teams = s.teams := rfl
@[simp] theorem State.mapFn_gangs (n : Nat) (f : FnRecord → FnRecord) : (s.mapFn n f).gangs = s.gangs := rfl
@[simp] theorem State.mapFn_cores (n : Nat) (f : FnRecord → FnRecord) : (s.mapFn n f).cores = s.cores := rfl
@[simp] theorem State.mapFn_slices (n : Nat) (f : FnRecord → FnRecord) : (s.mapFn n f).slices = s.slices := rfl
@[simp] theorem State.mapFn_mem (n : Nat) (f : FnRecord → FnRecord) : (s.mapFn n f).mem = s.mem := rfl
@[simp] theorem State.mapFn_net (n : Nat) (f : FnRecord → FnRecord) : (s.mapFn n f).net = s.net := rfl
@[simp] theorem State.mapFn_port (n : Nat) (f : FnRecord → FnRecord) : (s.mapFn n f).port = s.port := rfl
@[simp] theorem State.mapFn_platform (n : Nat) (f : FnRecord → FnRecord) : (s.mapFn n f).platform = s.platform := rfl

/-! ### State.mapQueue -/

@[simp] theorem State.mapQueue_agenda (q : Nat) (f : HostQueue → HostQueue) : (s.mapQueue q f).agenda = s.agenda := rfl
@[simp] theorem State.mapQueue_cur (q : Nat) (f : HostQueue → HostQueue) : (s.mapQueue q f).cur = s.cur := rfl
@[simp] theorem State.mapQueue_free (q : Nat) (f : HostQueue → HostQueue) : (s.mapQueue q f).free = s.free := rfl
@[simp] theorem State.mapQueue_tick (q : Nat) (f : HostQueue → HostQueue) : (s.mapQueue q f).tick = s.tick := rfl
@[simp] theorem State.mapQueue_cycles (q : Nat) (f : HostQueue → HostQueue) : (s.mapQueue q f).cycles = s.cycles := rfl
@[simp] theorem State.mapQueue_teams (q : Nat) (f : HostQueue → HostQueue) : (s.mapQueue q f).teams = s.teams := rfl
@[simp] theorem State.mapQueue_gangs (q : Nat) (f : HostQueue → HostQueue) : (s.mapQueue q f).gangs = s.gangs := rfl
@[simp] theorem State.mapQueue_cores (q : Nat) (f : HostQueue → HostQueue) : (s.mapQueue q f).cores = s.cores := rfl
@[simp] theorem State.mapQueue_slices (q : Nat) (f : HostQueue → HostQueue) : (s.mapQueue q f).slices = s.slices := rfl
@[simp] theorem State.mapQueue_mem (q : Nat) (f : HostQueue → HostQueue) : (s.mapQueue q f).mem = s.mem := rfl
@[simp] theorem State.mapQueue_net (q : Nat) (f : HostQueue → HostQueue) : (s.mapQueue q f).net = s.net := rfl
@[simp] theorem State.mapQueue_port (q : Nat) (f : HostQueue → HostQueue) : (s.mapQueue q f).port = s.port := rfl
@[simp] theorem State.mapQueue_platform (q : Nat) (f : HostQueue → HostQueue) : (s.mapQueue q f).platform = s.platform := rfl

/-! ### State.mapMem -/

@[simp] theorem State.mapMem_agenda (f : Mem → Mem) : (s.mapMem f).agenda = s.agenda := rfl
@[simp] theorem State.mapMem_cur (f : Mem → Mem) : (s.mapMem f).cur = s.cur := rfl
@[simp] theorem State.mapMem_free (f : Mem → Mem) : (s.mapMem f).free = s.free := rfl
@[simp] theorem State.mapMem_tick (f : Mem → Mem) : (s.mapMem f).tick = s.tick := rfl
@[simp] theorem State.mapMem_cycles (f : Mem → Mem) : (s.mapMem f).cycles = s.cycles := rfl
@[simp] theorem State.mapMem_teams (f : Mem → Mem) : (s.mapMem f).teams = s.teams := rfl
@[simp] theorem State.mapMem_gangs (f : Mem → Mem) : (s.mapMem f).gangs = s.gangs := rfl
@[simp] theorem State.mapMem_cores (f : Mem → Mem) : (s.mapMem f).cores = s.cores := rfl
@[simp] theorem State.mapMem_slices (f : Mem → Mem) : (s.mapMem f).slices = s.slices := rfl
@[simp] theorem State.mapMem_hub (f : Mem → Mem) : (s.mapMem f).hub = s.hub := rfl
@[simp] theorem State.mapMem_net (f : Mem → Mem) : (s.mapMem f).net = s.net := rfl
@[simp] theorem State.mapMem_port (f : Mem → Mem) : (s.mapMem f).port = s.port := rfl
@[simp] theorem State.mapMem_platform (f : Mem → Mem) : (s.mapMem f).platform = s.platform := rfl

/-! ### State.mapHub -/

@[simp] theorem State.mapHub_agenda (f : Hub → Hub) : (s.mapHub f).agenda = s.agenda := rfl
@[simp] theorem State.mapHub_cur (f : Hub → Hub) : (s.mapHub f).cur = s.cur := rfl
@[simp] theorem State.mapHub_free (f : Hub → Hub) : (s.mapHub f).free = s.free := rfl
@[simp] theorem State.mapHub_tick (f : Hub → Hub) : (s.mapHub f).tick = s.tick := rfl
@[simp] theorem State.mapHub_cycles (f : Hub → Hub) : (s.mapHub f).cycles = s.cycles := rfl
@[simp] theorem State.mapHub_teams (f : Hub → Hub) : (s.mapHub f).teams = s.teams := rfl
@[simp] theorem State.mapHub_gangs (f : Hub → Hub) : (s.mapHub f).gangs = s.gangs := rfl
@[simp] theorem State.mapHub_cores (f : Hub → Hub) : (s.mapHub f).cores = s.cores := rfl
@[simp] theorem State.mapHub_slices (f : Hub → Hub) : (s.mapHub f).slices = s.slices := rfl
@[simp] theorem State.mapHub_mem (f : Hub → Hub) : (s.mapHub f).mem = s.mem := rfl
@[simp] theorem State.mapHub_net (f : Hub → Hub) : (s.mapHub f).net = s.net := rfl
@[simp] theorem State.mapHub_port (f : Hub → Hub) : (s.mapHub f).port = s.port := rfl
@[simp] theorem State.mapHub_platform (f : Hub → Hub) : (s.mapHub f).platform = s.platform := rfl

/-! ### State.mapNet -/

@[simp] theorem State.mapNet_agenda (f : Net → Net) : (s.mapNet f).agenda = s.agenda := rfl
@[simp] theorem State.mapNet_cur (f : Net → Net) : (s.mapNet f).cur = s.cur := rfl
@[simp] theorem State.mapNet_free (f : Net → Net) : (s.mapNet f).free = s.free := rfl
@[simp] theorem State.mapNet_tick (f : Net → Net) : (s.mapNet f).tick = s.tick := rfl
@[simp] theorem State.mapNet_cycles (f : Net → Net) : (s.mapNet f).cycles = s.cycles := rfl
@[simp] theorem State.mapNet_teams (f : Net → Net) : (s.mapNet f).teams = s.teams := rfl
@[simp] theorem State.mapNet_gangs (f : Net → Net) : (s.mapNet f).gangs = s.gangs := rfl
@[simp] theorem State.mapNet_cores (f : Net → Net) : (s.mapNet f).cores = s.cores := rfl
@[simp] theorem State.mapNet_slices (f : Net → Net) : (s.mapNet f).slices = s.slices := rfl
@[simp] theorem State.mapNet_mem (f : Net → Net) : (s.mapNet f).mem = s.mem := rfl
@[simp] theorem State.mapNet_hub (f : Net → Net) : (s.mapNet f).hub = s.hub := rfl
@[simp] theorem State.mapNet_port (f : Net → Net) : (s.mapNet f).port = s.port := rfl
@[simp] theorem State.mapNet_platform (f : Net → Net) : (s.mapNet f).platform = s.platform := rfl

/-! ### State.mapConn -/

@[simp] theorem State.mapConn_agenda (c : Nat) (f : Conn → Conn) : (s.mapConn c f).agenda = s.agenda := rfl
@[simp] theorem State.mapConn_cur (c : Nat) (f : Conn → Conn) : (s.mapConn c f).cur = s.cur := rfl
@[simp] theorem State.mapConn_free (c : Nat) (f : Conn → Conn) : (s.mapConn c f).free = s.free := rfl
@[simp] theorem State.mapConn_tick (c : Nat) (f : Conn → Conn) : (s.mapConn c f).tick = s.tick := rfl
@[simp] theorem State.mapConn_cycles (c : Nat) (f : Conn → Conn) : (s.mapConn c f).cycles = s.cycles := rfl
@[simp] theorem State.mapConn_teams (c : Nat) (f : Conn → Conn) : (s.mapConn c f).teams = s.teams := rfl
@[simp] theorem State.mapConn_gangs (c : Nat) (f : Conn → Conn) : (s.mapConn c f).gangs = s.gangs := rfl
@[simp] theorem State.mapConn_cores (c : Nat) (f : Conn → Conn) : (s.mapConn c f).cores = s.cores := rfl
@[simp] theorem State.mapConn_slices (c : Nat) (f : Conn → Conn) : (s.mapConn c f).slices = s.slices := rfl
@[simp] theorem State.mapConn_mem (c : Nat) (f : Conn → Conn) : (s.mapConn c f).mem = s.mem := rfl
@[simp] theorem State.mapConn_hub (c : Nat) (f : Conn → Conn) : (s.mapConn c f).hub = s.hub := rfl
@[simp] theorem State.mapConn_port (c : Nat) (f : Conn → Conn) : (s.mapConn c f).port = s.port := rfl
@[simp] theorem State.mapConn_platform (c : Nat) (f : Conn → Conn) : (s.mapConn c f).platform = s.platform := rfl

/-! ### State.mapPlatform -/

@[simp] theorem State.mapPlatform_agenda (f : Platform → Platform) : (s.mapPlatform f).agenda = s.agenda := rfl
@[simp] theorem State.mapPlatform_cur (f : Platform → Platform) : (s.mapPlatform f).cur = s.cur := rfl
@[simp] theorem State.mapPlatform_free (f : Platform → Platform) : (s.mapPlatform f).free = s.free := rfl
@[simp] theorem State.mapPlatform_tick (f : Platform → Platform) : (s.mapPlatform f).tick = s.tick := rfl
@[simp] theorem State.mapPlatform_cycles (f : Platform → Platform) : (s.mapPlatform f).cycles = s.cycles := rfl
@[simp] theorem State.mapPlatform_teams (f : Platform → Platform) : (s.mapPlatform f).teams = s.teams := rfl
@[simp] theorem State.mapPlatform_gangs (f : Platform → Platform) : (s.mapPlatform f).gangs = s.gangs := rfl
@[simp] theorem State.mapPlatform_cores (f : Platform → Platform) : (s.mapPlatform f).cores = s.cores := rfl
@[simp] theorem State.mapPlatform_slices (f : Platform → Platform) : (s.mapPlatform f).slices = s.slices := rfl
@[simp] theorem State.mapPlatform_mem (f : Platform → Platform) : (s.mapPlatform f).mem = s.mem := rfl
@[simp] theorem State.mapPlatform_hub (f : Platform → Platform) : (s.mapPlatform f).hub = s.hub := rfl
@[simp] theorem State.mapPlatform_net (f : Platform → Platform) : (s.mapPlatform f).net = s.net := rfl
@[simp] theorem State.mapPlatform_port (f : Platform → Platform) : (s.mapPlatform f).port = s.port := rfl

/-! ### State.logEvent -/

@[simp] theorem State.logEvent_agenda (e : LogEvent) : (s.logEvent e).agenda = s.agenda := rfl
@[simp] theorem State.logEvent_cur (e : LogEvent) : (s.logEvent e).cur = s.cur := rfl
@[simp] theorem State.logEvent_free (e : LogEvent) : (s.logEvent e).free = s.free := rfl
@[simp] theorem State.logEvent_tick (e : LogEvent) : (s.logEvent e).tick = s.tick := rfl
@[simp] theorem State.logEvent_cycles (e : LogEvent) : (s.logEvent e).cycles = s.cycles := rfl
@[simp] theorem State.logEvent_teams (e : LogEvent) : (s.logEvent e).teams = s.teams := rfl
@[simp] theorem State.logEvent_gangs (e : LogEvent) : (s.logEvent e).gangs = s.gangs := rfl
@[simp] theorem State.logEvent_cores (e : LogEvent) : (s.logEvent e).cores = s.cores := rfl
@[simp] theorem State.logEvent_slices (e : LogEvent) : (s.logEvent e).slices = s.slices := rfl
@[simp] theorem State.logEvent_mem (e : LogEvent) : (s.logEvent e).mem = s.mem := rfl
@[simp] theorem State.logEvent_hub (e : LogEvent) : (s.logEvent e).hub = s.hub := rfl
@[simp] theorem State.logEvent_net (e : LogEvent) : (s.logEvent e).net = s.net := rfl
@[simp] theorem State.logEvent_port (e : LogEvent) : (s.logEvent e).port = s.port := rfl

/-! ### State.refuse -/

@[simp] theorem State.refuse_agenda (n : Nat) : (s.refuse n).agenda = s.agenda := rfl
@[simp] theorem State.refuse_cur (n : Nat) : (s.refuse n).cur = s.cur := rfl
@[simp] theorem State.refuse_free (n : Nat) : (s.refuse n).free = s.free := rfl
@[simp] theorem State.refuse_tick (n : Nat) : (s.refuse n).tick = s.tick := rfl
@[simp] theorem State.refuse_cycles (n : Nat) : (s.refuse n).cycles = s.cycles := rfl
@[simp] theorem State.refuse_teams (n : Nat) : (s.refuse n).teams = s.teams := rfl
@[simp] theorem State.refuse_gangs (n : Nat) : (s.refuse n).gangs = s.gangs := rfl
@[simp] theorem State.refuse_cores (n : Nat) : (s.refuse n).cores = s.cores := rfl
@[simp] theorem State.refuse_slices (n : Nat) : (s.refuse n).slices = s.slices := rfl
@[simp] theorem State.refuse_mem (n : Nat) : (s.refuse n).mem = s.mem := rfl
@[simp] theorem State.refuse_net (n : Nat) : (s.refuse n).net = s.net := rfl
@[simp] theorem State.refuse_port (n : Nat) : (s.refuse n).port = s.port := rfl
@[simp] theorem State.refuse_platform (n : Nat) : (s.refuse n).platform = s.platform := rfl

/-! ### Accessors after updates -/

theorem State.teamAt_setTeamAt (u v : Nat) (t : Team) : (s.setTeamAt u t).teamAt v = if v = u then t else s.teamAt v :=
  Map.get_set _ _ _ _ _

@[simp] theorem State.teamAt_setTeamAt_self (u : Nat) (t : Team) : (s.setTeamAt u t).teamAt u = t := by
  simp [State.teamAt_setTeamAt]

@[simp] theorem State.setTeamAt_setTeamAt (u : Nat) (t t' : Team) : (s.setTeamAt u t).setTeamAt u t' = s.setTeamAt u t' := by
  simp [State.setTeamAt]

theorem State.teamAt_mapTeam (u v : Nat) (f : Team → Team) :
    (s.mapTeam u f).teamAt v = if v = u then f (s.teamAt u) else s.teamAt v := State.teamAt_setTeamAt s u v _

@[simp] theorem State.teamAt_mapTeam_self (u : Nat) (f : Team → Team) : (s.mapTeam u f).teamAt u = f (s.teamAt u) := by
  simp [State.teamAt_mapTeam]

@[simp] theorem State.mapTeam_mapTeam (u : Nat) (f g : Team → Team) : (s.mapTeam u f).mapTeam u g = s.mapTeam u (fun t => g (f t)) := by
  simp [State.mapTeam]

@[simp] theorem State.team_setTeam (t : Team) : (s.setTeam t).team = t := State.teamAt_setTeamAt_self s s.cur t

@[simp] theorem State.setTeam_setTeam (t t' : Team) : (s.setTeam t).setTeam t' = s.setTeam t' :=
  State.setTeamAt_setTeamAt s s.cur t t'

@[simp] theorem State.regs_setRegs (r : TeamRegs) : (s.setRegs r).regs = r := by
  simp [State.setRegs, State.regs]

@[simp] theorem State.setRegs_setRegs (r r' : TeamRegs) : (s.setRegs r).setRegs r' = s.setRegs r' := by
  simp [State.setRegs]

theorem State.gangAt_mapGang (g h : Nat) (f : Gang → Gang) :
    (s.mapGang g f).gangAt h = if h = g then f (s.gangAt g) else s.gangAt h := Map.get_set _ _ _ _ _

@[simp] theorem State.gangAt_mapGang_self (g : Nat) (f : Gang → Gang) : (s.mapGang g f).gangAt g = f (s.gangAt g) := by
  simp [State.gangAt_mapGang]

theorem State.coreAt_mapCore (c d : Nat) (f : Core → Core) :
    (s.mapCore c f).coreAt d = if d = c then f (s.coreAt c) else s.coreAt d := Map.get_set _ _ _ _ _

@[simp] theorem State.coreAt_mapCore_self (c : Nat) (f : Core → Core) : (s.mapCore c f).coreAt c = f (s.coreAt c) := by
  simp [State.coreAt_mapCore]

theorem State.sliceAt_mapSlice (c d : Nat) (f : Slice → Slice) :
    (s.mapSlice c f).sliceAt d = if d = c then f (s.sliceAt c) else s.sliceAt d := Map.get_set _ _ _ _ _

@[simp] theorem State.sliceAt_mapSlice_self (c : Nat) (f : Slice → Slice) : (s.mapSlice c f).sliceAt c = f (s.sliceAt c) := by
  simp [State.sliceAt_mapSlice]

theorem State.ctxAt_mapCtx (c d : Nat) (f : CtxRecord → CtxRecord) :
    (s.mapCtx c f).ctxAt d = if d = c then f (s.ctxAt c) else s.ctxAt d := Map.get_set _ _ _ _ _

theorem State.fnAt_mapFn (c d : Nat) (f : FnRecord → FnRecord) :
    (s.mapFn c f).fnAt d = if d = c then f (s.fnAt c) else s.fnAt d := Map.get_set _ _ _ _ _

theorem State.queueAt_mapQueue (c d : Nat) (f : HostQueue → HostQueue) :
    (s.mapQueue c f).queueAt d = if d = c then f (s.queueAt c) else s.queueAt d := Map.get_set _ _ _ _ _

theorem State.dispatchAt_mapDispatch (c d : Nat) (f : Dispatch → Dispatch) :
    (s.mapDispatch c f).dispatchAt d = if d = c then f (s.dispatchAt c) else s.dispatchAt d := Map.get_set _ _ _ _ _

theorem State.connAt_mapConn (c d : Nat) (f : Conn → Conn) :
    (s.mapConn c f).connAt d = if d = c then f (s.connAt c) else s.connAt d := Map.get_set _ _ _ _ _

@[simp] theorem State.mapMem_mem (f : Mem → Mem) : (s.mapMem f).mem = f s.mem := rfl
@[simp] theorem State.mapHub_hub (f : Hub → Hub) : (s.mapHub f).hub = f s.hub := rfl
@[simp] theorem State.mapNet_net (f : Net → Net) : (s.mapNet f).net = f s.net := rfl
@[simp] theorem State.mapPlatform_platform (f : Platform → Platform) : (s.mapPlatform f).platform = f s.platform := rfl

/-- A change of the issuing team is seen by no other accessor. -/
@[simp] theorem State.gangAt_setTeamAt (u g : Nat) (t : Team) : (s.setTeamAt u t).gangAt g = s.gangAt g := rfl
@[simp] theorem State.gangAt_setTeam (g : Nat) (t : Team) : (s.setTeam t).gangAt g = s.gangAt g := rfl
@[simp] theorem State.gangAt_setRegs (g : Nat) (r : TeamRegs) : (s.setRegs r).gangAt g = s.gangAt g := rfl
@[simp] theorem State.coreAt_setTeam (c : Nat) (t : Team) : (s.setTeam t).coreAt c = s.coreAt c := rfl
@[simp] theorem State.dispatchAt_setTeam (d : Nat) (t : Team) : (s.setTeam t).dispatchAt d = s.dispatchAt d := rfl

/-! ### Scalar registers and masks -/

/-- s0 reads as zero whatever the state holds (R97). -/
@[simp] theorem TeamRegs.sreg_zero (r : TeamRegs) : r.sreg 0 = 0 := by simp [TeamRegs.sreg]

/-- A write to s0 is discarded (R97). -/
@[simp] theorem TeamRegs.setS_zero (r : TeamRegs) (x : DWord) : r.setS 0 x = r := by simp [TeamRegs.setS]

theorem TeamRegs.sreg_setS (r : TeamRegs) (n k : Nat) (x : DWord) :
    (r.setS n x).sreg k = if k = n ∧ n ≠ 0 then x else r.sreg k := by
  unfold TeamRegs.setS TeamRegs.sreg
  by_cases hn : n = 0
  · subst hn; simp
  · by_cases hk : k = 0
    · subst hk; simp [hn, Ne.symm hn]
    · simp [hn, hk, Map.get_put]

@[simp] theorem TeamRegs.setS_pc (r : TeamRegs) (n : Nat) (x : DWord) : (r.setS n x).pc = r.pc := by
  unfold TeamRegs.setS; split <;> rfl
@[simp] theorem TeamRegs.setS_v (r : TeamRegs) (n : Nat) (x : DWord) : (r.setS n x).v = r.v := by
  unfold TeamRegs.setS; split <;> rfl
@[simp] theorem TeamRegs.setS_k (r : TeamRegs) (n : Nat) (x : DWord) : (r.setS n x).k = r.k := by
  unfold TeamRegs.setS; split <;> rfl
@[simp] theorem TeamRegs.setS_em (r : TeamRegs) (n : Nat) (x : DWord) : (r.setS n x).em = r.em := by
  unfold TeamRegs.setS; split <;> rfl
@[simp] theorem TeamRegs.setS_q (r : TeamRegs) (n : Nat) (x : DWord) : (r.setS n x).q = r.q := by
  unfold TeamRegs.setS; split <;> rfl
@[simp] theorem TeamRegs.setS_fflags (r : TeamRegs) (n : Nat) (x : DWord) : (r.setS n x).fflags = r.fflags := by
  unfold TeamRegs.setS; split <;> rfl

/-- k(n) after a write of k(n): the lanes below TW (R22, R159). -/
theorem TeamRegs.kreg_setK (r : TeamRegs) (tw n j : Nat) (x : Mask) :
    (r.setK tw n x).kreg j = if j = n then x &&& laneMask tw else r.kreg j := Map.get_put _ _ _ _ _

end Sys2Proof.Machine
end

