-- ==== Sys2Proof/Laws/Memory.lean ====
section
/-! SUPPORT. What the operations on memory leave: DRAM and host memory stay in the canonical form, whether an access is performed or
stops. -/
namespace Sys2Proof.Machine

/-- DRAM and host memory stand in the canonical form. -/
def Mem.canon (m : Mem) : Prop := m.dram.wf = true ∧ m.host.wf = true

/-- The memories of the state stand in the canonical form. -/
def State.canon (s : State) : Prop := s.mem.canon

/-- The memory at reset has the form. -/
theorem State.reset_canon : State.reset.canon := ⟨rfl, rfl⟩

/-! ### Folds -/

/-- What every step of a fold keeps, the fold keeps. -/
theorem foldl_keeps {α β : Type} (p : α → Prop) (f : α → β → α) (h : ∀ a b, p a → p (f a b)) (l : List β) (a : α) (ha : p a) :
    p (l.foldl f a) := by
  induction l generalizing a with
  | nil => exact ha
  | cons b r ih => exact ih _ (h a b ha)

/-- What both branches of a choice have, the choice has. -/
theorem ite_has {α : Type} {p : α → Prop} {c : Prop} [Decidable c] {a b : α} (ha : p a) (hb : p b) : p (if c then a else b) := by
  split
  · exact ha
  · exact hb

namespace Laws

/-- An access keeps the canonical form: in the state of its result, which `f` takes out, and in the state that a stop leaves. -/
def Kept {α : Type} (f : α → State) (x : Res α) : Prop :=
  match x with
  | .ok a => (f a).canon
  | .error e => e.2.canon

/-- The state that a stop leaves has the form. -/
theorem Kept.err {α : Type} {f : α → State} {x : Res α} {e : Stop × State} (he : x = .error e) (h : Kept f x) : e.2.canon := by
  subst he
  exact h

/-- The state that an access goes on with has the form. -/
theorem Kept.val {α : Type} {f : α → State} {x : Res α} {a : α} (he : x = .ok a) (h : Kept f x) : (f a).canon := by
  subst he
  exact h

/-- The steps of a fold that may stop keep the form, and so does the fold. -/
theorem Kept.foldl {α β : Type} {f : α → State} (g : Res α → β → Res α) (he : ∀ e b, g (.error e) b = .error e)
    (h : ∀ a b, (f a).canon → Kept f (g (.ok a) b)) (l : List β) (r : Res α) (hr : Kept f r) : Kept f (l.foldl g r) := by
  induction l generalizing r with
  | nil => exact hr
  | cons b t ih =>
    refine ih (g r b) ?_
    cases r with
    | error e => rw [he]; exact hr
    | ok a => exact h a b hr

/-! ### Memories -/

theorem canon_setCopy {m : Mem} (line slice : Nat) (c : SliceLine) (h : m.canon) : (m.setCopy line slice c).canon := h

theorem canon_setDir {m : Mem} (line : Nat) (o : Map Nat) (sh : BitVec 5) (h : m.canon) : (m.setDir line o sh).canon := h

theorem canon_setGrant {m : Mem} (line : Nat) (x : Option Bool) (h : m.canon) : (m.setGrant line x).canon := h

theorem canon_markPoison {m : Mem} (pa n : Nat) (h : m.canon) : (m.markPoison pa n).canon := h

theorem canon_send {m : Mem} (line : Nat) (x : CohMsg) (h : m.canon) : (m.send line x).canon := by
  unfold Mem.send
  split <;> exact h

theorem canon_dropWords {m : Mem} (line slice : Nat) (w : Word32) (h : m.canon) : (m.dropWords line slice w).canon := by
  unfold Mem.dropWords
  dsimp only
  split <;> exact h

theorem canon_setBacking {m : Mem} (pw : Nat) (x : Word32) (h : m.canon) : (m.setBacking pw x).canon := by
  unfold Mem.setBacking
  split
  · exact ⟨Memory.wf_write _ _ _ h.1, h.2⟩
  · exact ⟨h.1, Memory.wf_write _ _ _ h.2⟩

theorem canon_setWord {m : Mem} (pw : Nat) (x : Word32) (h : m.canon) : (m.setWord pw x).canon := by
  unfold Mem.setWord
  have h1 := foldl_keeps Mem.canon (fun (k : Mem) sl => if m.holder pw = some sl then k else k.dropWords (pw / 32) sl (1#32 <<< (pw % 32)))
    (fun a b ha => by split; exact ha; exact canon_dropWords _ _ _ ha) (slicesFor (pw / 32)) m h
  dsimp only
  split
  · exact canon_setCopy _ _ _ h1
  · exact canon_setBacking _ _ h1

theorem canon_setByte {m : Mem} (pa : Nat) (b : Byte) (h : m.canon) : (m.setByte pa b).canon := canon_setWord _ _ h

theorem canon_setBytes {m : Mem} (pa : Nat) (bs : List Byte) (h : m.canon) : (m.setBytes pa bs).canon :=
  foldl_keeps Mem.canon (fun (k : Mem) i => k.setByte (pa + i) (bs.getD i 0)) (fun _ _ ha => canon_setByte _ _ ha) _ m h

/-- Words written to the memory behind the slices keep the form. -/
theorem canon_backWords {m : Mem} (l : List (Nat × Word32)) (h : m.canon) :
    (l.foldl (fun (m : Mem) p => m.setBacking p.1 p.2) m).canon :=
  foldl_keeps Mem.canon _ (fun _ _ ha => canon_setBacking _ _ ha) l m h

theorem canon_flushLine {m : Mem} (line : Nat) (h : m.canon) : (m.flushLine line).canon := by
  unfold Mem.flushLine
  have h1 := foldl_keeps Mem.canon (fun (k : Mem) sl => k.setCopy line sl .none) (fun _ _ ha => canon_setCopy _ _ _ ha) (slicesFor line) m h
  dsimp only
  split
  · exact canon_backWords _ h1
  · exact h1

theorem canon_cleanLine {m : Mem} (line : Nat) (h : m.canon) : (m.cleanLine line).canon :=
  canon_backWords _ (foldl_keeps Mem.canon _ (fun a b ha => by dsimp only; split <;> exact ha) (slicesFor line) m h)

theorem canon_writeBackSlice {m : Mem} (line slice : Nat) (h : m.canon) : (m.writeBackSlice line slice).canon := by
  unfold Mem.writeBackSlice
  dsimp only
  split
  · exact h
  · exact canon_setDir _ _ _ (canon_setCopy _ _ _ (foldl_keeps Mem.canon _
      (fun a b ha => by split; exact canon_setBacking _ _ ha; exact ha) (List.range 32) m h))

theorem canon_merge {m : Mem} (line slice : Nat) (w : Word32) (h : m.canon) : (m.merge line slice w).canon := h

theorem canon_giveWords {m : Mem} (line slice : Nat) (w : Word32) (h : m.canon) : (m.giveWords line slice w).canon :=
  canon_setDir _ _ _ (canon_setCopy _ _ _ (foldl_keeps Mem.canon _ (fun _ _ ha => canon_dropWords _ _ _ ha) _ m h))

theorem canon_recallWords {m : Mem} (line : Nat) (w : Word32) (h : m.canon) : (m.recallWords line w).canon := by
  unfold Mem.recallWords
  dsimp only
  have h1 := foldl_keeps Mem.canon (fun (k : Mem) sl => k.dropWords line sl ((m.dirAt line).givenUp sl w)) (fun _ _ ha => canon_dropWords _ _ _ ha)
    ((m.dirAt line).others (homeSlice (128 * line)) w) m h
  split
  · exact h
  · split
    · exact foldl_keeps Mem.canon _ (fun _ _ ha => canon_setBacking _ _ ha) _ _ (canon_setDir _ _ _ h1)
    · exact canon_setCopy _ _ _ (canon_setDir _ _ _ h1)

theorem canon_recallLine {m : Mem} (line : Nat) (h : m.canon) : (m.recallLine line).canon :=
  foldl_keeps Mem.canon _ (fun _ _ ha => canon_writeBackSlice _ _ ha) _ m h

theorem canon_dropSharers {m : Mem} (line r : Nat) (h : m.canon) : (m.dropSharers line r).canon :=
  foldl_keeps Mem.canon _ (fun _ _ ha => canon_send _ _ (canon_setDir _ _ _ (canon_dropWords _ _ _ ha))) _ m h

theorem canon_homeWrite {m : Mem} (pa : Nat) (bs : List Byte) (h : m.canon) : (m.homeWrite pa bs).canon :=
  canon_setBytes _ _ (canon_recallWords _ _ (canon_dropSharers _ _ h))

theorem canon_evictCopy {m : Mem} (line slice : Nat) (h : m.canon) : (m.evictCopy line slice).canon := by
  unfold Mem.evictCopy
  have h1 := canon_writeBackSlice line slice h
  exact ite_has (canon_setGrant _ _ (canon_setDir _ _ _ h1)) (canon_setDir _ _ _ h1)

theorem canon_fillCopy {m : Mem} (line slice plot rank : Nat) (pin : Bool) (h : m.canon) : (m.fillCopy line slice plot rank pin).canon := by
  unfold Mem.fillCopy
  dsimp only
  split <;> exact h

/-! ### What changes no memory -/

theorem canon_mapTeam {s : State} (u : Nat) (f : Team → Team) (hs : s.canon) : (s.mapTeam u f).canon := hs

theorem canon_mapGang {s : State} (g : Nat) (f : Gang → Gang) (hs : s.canon) : (s.mapGang g f).canon := hs

theorem canon_mapDispatch {s : State} (d : Nat) (f : Dispatch → Dispatch) (hs : s.canon) : (s.mapDispatch d f).canon := hs

theorem canon_mapCore {s : State} (c : Nat) (f : Core → Core) (hs : s.canon) : (s.mapCore c f).canon := hs

theorem canon_mapSlice {s : State} (c : Nat) (f : Slice → Slice) (hs : s.canon) : (s.mapSlice c f).canon := hs

theorem canon_mapCtx {s : State} (c : Nat) (f : CtxRecord → CtxRecord) (hs : s.canon) : (s.mapCtx c f).canon := hs

theorem canon_mapFn {s : State} (f : Nat) (g : FnRecord → FnRecord) (hs : s.canon) : (s.mapFn f g).canon := hs

theorem canon_mapQueue {s : State} (q : Nat) (f : HostQueue → HostQueue) (hs : s.canon) : (s.mapQueue q f).canon := hs

theorem canon_mapHub {s : State} (f : Hub → Hub) (hs : s.canon) : (s.mapHub f).canon := hs

theorem canon_mapNet {s : State} (f : Net → Net) (hs : s.canon) : (s.mapNet f).canon := hs

theorem canon_mapConn {s : State} (c : Nat) (f : Conn → Conn) (hs : s.canon) : (s.mapConn c f).canon := hs

theorem canon_mapPlatform {s : State} (f : Platform → Platform) (hs : s.canon) : (s.mapPlatform f).canon := hs

theorem canon_setTeam {s : State} (t : Team) (hs : s.canon) : (s.setTeam t).canon := hs

theorem canon_setS {s : State} (n : Nat) (x : DWord) (hs : s.canon) : (s.setS n x).canon := hs

theorem canon_logEvent {s : State} (e : LogEvent) (hs : s.canon) : (s.logEvent e).canon := hs

theorem canon_mapMem {s : State} {f : Mem → Mem} (h : (f s.mem).canon) : (s.mapMem f).canon := h

theorem canon_count {s : State} (g ev n : Nat) (hs : s.canon) : (s.count g ev n).canon := by
  unfold State.count
  dsimp only
  split <;> exact hs

theorem canon_countFor {s : State} (g : Option Nat) (ev n : Nat) (hs : s.canon) : (s.countFor g ev n).canon := by
  cases g with
  | none => exact hs
  | some g => exact canon_count _ _ _ hs

theorem canon_wakeIsland {s : State} (n : Nat) (hs : s.canon) : (s.wakeIsland n).canon := by
  unfold State.wakeIsland
  split <;> exact hs

theorem canon_wakeSlice {s : State} (n : Nat) (hs : s.canon) : (s.wakeSlice n).canon := by
  unfold State.wakeSlice
  split
  · exact canon_wakeIsland _ (canon_wakeIsland _ hs)
  · exact hs

theorem canon_wakeFor {s : State} (pa : Nat) (p : Path) (hs : s.canon) : (s.wakeFor pa p).canon := by
  unfold State.wakeFor
  split
  · exact canon_wakeSlice _ (canon_wakeSlice _ hs)
  · exact canon_wakeSlice _ hs

/-! ### Slices -/

theorem canon_roomIn {s s1 : State} {slice p : Nat} (h : s.roomIn slice = some (s1, p)) (hs : s.canon) : s1.canon := by
  unfold State.roomIn at h
  split at h
  · cases h; exact hs
  · dsimp only at h
    split at h
    · cases h
    · cases h; exact canon_evictCopy _ _ hs

theorem canon_shareLine {s : State} (line slice rank : Nat) (pin : Bool) (hs : s.canon) : (s.shareLine line slice rank pin).canon := by
  unfold State.shareLine
  have hw := canon_wakeSlice slice hs
  dsimp only
  split
  · exact canon_mapMem (canon_fillCopy _ _ _ _ _ hw)
  · split
    · exact hw
    · rename_i h; exact canon_mapMem (canon_fillCopy _ _ _ _ _ (canon_roomIn h hw))

theorem canon_ownWords {s : State} (line slice : Nat) (w : Word32) (rank : Nat) (hs : s.canon) : (s.ownWords line slice w rank).canon := by
  unfold State.ownWords
  have h := canon_dropSharers line slice (canon_shareLine line slice rank false hs)
  dsimp only
  split
  · exact canon_mapMem (canon_giveWords _ _ _ h)
  · exact canon_mapMem (canon_recallWords _ _ h)

theorem canon_atHome {s : State} (line : Nat) (hs : s.canon) : (s.atHome line).canon := canon_wakeSlice _ hs

/-- A write at home by an agent that has no cache of its own keeps the form. -/
theorem canon_stateHomeWrite {s : State} (pa : Nat) (bs : List Byte) (hs : s.canon) : (s.homeWrite pa bs).canon := by
  have h := canon_atHome (pa / 128) hs
  exact canon_mapMem (canon_homeWrite pa bs (ite_has (p := State.canon) (canon_shareLine _ _ _ _ h) h))

theorem canon_bring {s : State} (pa : Nat) (p : Path) (hs : s.canon) : (s.bring pa p).canon := by
  unfold State.bring
  have h : (if p.pin = true then s.shareLine (pa / 128) (homeSlice pa) p.rank true else s).canon := by
    split
    · exact canon_shareLine _ _ _ _ hs
    · exact hs
  dsimp only
  split
  · exact canon_shareLine _ _ _ _ h
  · exact h

theorem canon_mergeAt {s : State} (pa : Nat) (bs : List Byte) (p : Path) (hs : s.canon) : (s.mergeAt pa bs p).canon := by
  unfold State.mergeAt
  have h : (if p.pin = true then s.shareLine (pa / 128) (homeSlice pa) p.rank true else s).canon := by
    split
    · exact canon_shareLine _ _ _ _ hs
    · exact hs
  dsimp only
  split
  · exact canon_mapMem (canon_setBytes _ _ (canon_ownWords _ _ _ _ h))
  · exact canon_stateHomeWrite _ _ h

/-! ### Translation -/

theorem canon_setUsed {s : State} (l : Leaf) (w : Bool) (hs : s.canon) : Kept id (s.setUsed l w) := by
  unfold State.setUsed
  dsimp only
  generalize s.mem.dword l.entry ||| (if w = true then 0xC00#64 else 0x400#64) = e
  split
  · exact hs
  · split
    · exact hs
    · exact canon_stateHomeWrite _ _ hs

theorem canon_tlbFill {s : State} (c : Nat) (e : TlbEntry) (hs : s.canon) : (s.tlbFill c e).canon := hs

theorem canon_remember {s : State} (c ctx va : Nat) (l : Leaf) (ts : List (Nat × Nat)) (hs : s.canon) : (s.remember c ctx va l ts).canon := hs

theorem canon_wakeWalk {s : State} (va : Nat) (w : Walk) (hs : s.canon) : (s.wakeWalk va w).canon :=
  foldl_keeps State.canon _ (fun _ _ ha => canon_atHome _ ha) w.tables s hs

theorem canon_leafFor {s : State} (w : Walker) (ctx va : Nat) (wr : Bool) (hs : s.canon) : Kept Prod.fst (s.leafFor w ctx va wr) := by
  unfold State.leafFor
  have hw (s : State) (die : Option Nat) (hs : s.canon) : Kept Prod.fst
      (match s.walkStop va (s.walkOn die ctx va) with
        | some e => .error (e, s)
        | none => .ok (s.wakeWalk va (s.walkOn die ctx va), (s.walkOn die ctx va).leaf.map (fun l => ({ l with dirtySet := wr }, some (s.walkOn die ctx va).tables))) :
        Res (State × Option (Leaf × Option (List (Nat × Nat))))) := by
    split
    · exact hs
    · exact canon_wakeWalk _ _ hs
  dsimp only
  split
  · exact hw _ _ hs
  · split
    · exact hs
    · split
      · exact canon_countFor _ _ _ hs
      · exact hw _ _ (canon_countFor _ _ _ (canon_countFor _ _ _ hs))

theorem canon_translate {s : State} (w : Walker) (ctx va : Nat) (a : Access) (acc : Byte) (hs : s.canon) :
    Kept Prod.fst (s.translate w ctx va a acc) := by
  unfold State.translate
  dsimp only
  split
  · exact hs
  · have h := canon_leafFor w ctx va (accessWrites a) hs
    split
    · rename_i he; rw [he] at h; exact h
    · rename_i he; rw [he] at h; exact h
    · rename_i he; rw [he] at h
      repeat (split; exact h)
      · have hu := canon_setUsed ‹Leaf› (accessWrites a) h
        split
        · rename_i he2; rw [he2] at hu; exact hu
        · rename_i he2; rw [he2] at hu
          cases w.core <;> exact hu

theorem canon_flushTlbs {s : State} (scope : Option (Nat × Option (Nat × Nat))) (hs : s.canon) : (s.flushTlbs scope).canon := hs

theorem canon_completeInv {s : State} (id : Nat) (hs : s.canon) : (s.completeInv id).1.canon := by
  unfold State.completeInv
  split
  · exact hs
  · rename_i v _
    have h := foldl_keeps State.canon (fun (s : State) (w : Invalidation) => s.flushTlbs w.scope) (fun _ _ ha => ha)
      (s.hub.invs.filter (fun w => w.by_ = v.by_ && w.id ≤ id)) s hs
    dsimp only
    split <;> exact h

/-! ### Accesses at their place -/

theorem canon_readPlace {s : State} (p : Place) (n : Nat) (path : Path) (hs : s.canon) : Kept Prod.fst (s.readPlace p n path) := by
  unfold State.readPlace
  cases p with
  | home pa =>
    dsimp only
    split
    · exact hs
    · have h := canon_wakeFor pa path hs
      change (if path.cached = true then (s.wakeFor pa path).bring pa path else (s.wakeFor pa path).mapMem (fun m => m.flushLine (pa / 128))).canon
      split
      · exact canon_bring _ _ h
      · exact canon_mapMem (canon_flushLine _ h)
  | hub off => exact hs
  | scratch g off => exact hs
  | window sl slot off => dsimp only; split <;> exact hs

theorem canon_writePlace {s : State} (ctx va : Nat) (by_ : Writer) (p : Place) (bs : List Byte) (bad : List Nat) (path : Path)
    (hs : s.canon) : Kept id (s.writePlace ctx va by_ p bs bad path) := by
  unfold State.writePlace
  cases p with
  | home pa =>
    dsimp only
    split
    · exact hs
    · have h := canon_wakeFor pa path hs
      refine canon_mapMem (foldl_keeps Mem.canon _ (fun _ _ ha => canon_markPoison _ _ ha) bad _ ?_)
      change (if path.cached = true then (s.wakeFor pa path).mergeAt pa bs path
        else (s.wakeFor pa path).mapMem (fun m => (m.flushLine (pa / 128)).setBytes pa bs)).canon
      split
      · exact canon_mergeAt _ _ _ h
      · exact canon_mapMem (canon_setBytes _ _ (canon_flushLine _ h))
  | hub off => exact hs
  | scratch g off => exact hs
  | window sl slot off => exact canon_wakeSlice sl hs

/-! ### L1 (R100, R166 to R169, R218) -/

theorem canon_sendWords {s : State} (core : Nat) (l : L1Line) (words : List (Nat × Word32)) (acc : Byte) (hs : s.canon) :
    Kept id (s.sendWords core l words acc) := by
  unfold State.sendWords
  refine Kept.foldl _ (fun _ _ => rfl) (fun a b ha => ?_) words _ hs
  have ha : a.canon := ha
  dsimp only
  apply ite_has (p := Kept id)
  · exact ha
  · split
    · rename_i he; exact Kept.err he (canon_translate ⟨some core, none⟩ l.ctx (128 * l.vline + 4 * b.1) .write acc ha)
    rename_i he
    have h := Kept.val he (canon_translate ⟨some core, none⟩ l.ctx (128 * l.vline + 4 * b.1) .write acc ha)
    split
    · exact h
    · split
      · rename_i he; exact Kept.err he (canon_writePlace l.ctx (128 * l.vline + 4 * b.1) .other _ _ _ _ h)
      rename_i he
      have h2 := Kept.val he (canon_writePlace l.ctx (128 * l.vline + 4 * b.1) .other _ _ _ _ h)
      exact h2

theorem canon_writeBackLine {s : State} (core : Nat) (l : L1Line) (acc : Byte) (hs : s.canon) : Kept id (s.writeBackLine core l acc) :=
  canon_sendWords _ _ _ _ hs

theorem canon_evictLine {s : State} (core : Nat) (l : L1Line) (acc : Byte) (hs : s.canon) : Kept Prod.fst (s.evictLine core l acc) := by
  unfold State.evictLine
  have h := canon_writeBackLine core l acc hs
  split <;> (rename_i he; rw [he] at h; exact h)

theorem canon_evictWords {s : State} (core pa n : Nat) (acc : Byte) (hs : s.canon) : Kept id (s.evictWords core pa n acc) := by
  unfold State.evictWords
  split
  · exact hs
  · dsimp only
    split
    · rename_i he; exact Kept.err he (canon_sendWords _ _ _ _ hs)
    rename_i he
    have h1 := Kept.val he (canon_sendWords _ _ _ _ hs)
    exact h1

theorem canon_l1Room {s : State} (core fuel : Nat) (hs : s.canon) : Kept Prod.fst (s.l1Room core fuel) := by
  induction fuel generalizing s with
  | zero => unfold State.l1Room; split <;> first | exact hs | contradiction
  | succ f ih =>
    unfold State.l1Room
    split
    · exact hs
    · exact hs
    · rename_i hf
      cases hf
      dsimp only
      split
      · exact hs
      · rename_i l _
        have h := canon_evictLine (s := { s with free := s.free + 1 }) core l 0x02 hs
        split <;> (rename_i he; rw [he] at h)
        · exact h
        · exact h
        · exact ih h

theorem canon_lineFor {s : State} (core ctx line vline : Nat) (hs : s.canon) : Kept Prod.fst (s.lineFor core ctx line vline) := by
  unfold State.lineFor
  split
  · rename_i l _
    apply ite_has (p := Kept Prod.fst)
    · exact hs
    · have h := canon_evictLine core l 0x02 hs
      split <;> (rename_i he; rw [he] at h; exact h)
  · split
    · rename_i he; exact Kept.err he (canon_l1Room core _ hs)
    rename_i he
    have hr := Kept.val he (canon_l1Room core _ hs)
    exact hr

theorem canon_passL1 {s : State} (core pa : Nat) (acc : Byte) (hs : s.canon) : Kept Prod.fst (s.passL1 core pa acc) := by
  unfold State.passL1
  split
  · exact hs
  · exact canon_evictLine _ _ _ hs

theorem canon_claimLine {s : State} (core : Nat) (blocks : List (Nat × Nat)) (l : L1Line) (hs : s.canon) :
    Kept id (s.claimLine core blocks l) := by
  unfold State.claimLine
  have h := canon_evictLine core l 0x02 hs
  split <;> (rename_i he; rw [he] at h)
  · exact h
  · exact h
  · split <;> exact h

theorem canon_claimBlocks {s : State} (core : Nat) (blocks : List (Nat × Nat)) (hs : s.canon) : Kept id (s.claimBlocks core blocks) := by
  unfold State.claimBlocks
  exact Kept.foldl _ (fun _ _ => rfl) (fun a b ha => canon_claimLine core blocks b ha) _ _ hs

/-! ### A team's accesses -/

theorem canon_target {s : State} (u : Nat) (a : Access) (acc : Byte) (ea n : Nat) (hs : s.canon) : Kept Prod.fst (s.target u a acc ea n) := by
  unfold State.target
  split
  · split <;> exact hs
  · split
    · rename_i he; exact Kept.err he (canon_translate _ _ _ _ _ hs)
    rename_i he
    have hr := Kept.val he (canon_translate _ _ _ _ _ hs)
    split <;> exact hr

theorem canon_targets {s : State} (u : Nat) (a : Access) (acc : Byte) (lanes : List (Nat × DWord)) (n : Nat) (hs : s.canon) :
    Kept Prod.fst (s.targets u a acc lanes n) := by
  unfold State.targets
  split
  · exact hs
  · refine Kept.foldl (f := Prod.fst) _ (fun _ _ => rfl) (fun r b hr => ?_) lanes _ hs
    obtain ⟨s1, out⟩ := r
    dsimp only
    split
    · rename_i he; exact Kept.err he (canon_target u a acc b.2.toNat n hr)
    rename_i he
    have hx := Kept.val he (canon_target u a acc b.2.toNat n hr)
    exact hx

theorem canon_readHome {s : State} (va : Nat) (p : Place) (n : Nat) (path : Path) (hs : s.canon) : Kept Prod.fst (s.readHome va p n path) := by
  unfold State.readHome
  split
  · exact ite_has (p := Kept Prod.fst) hs (canon_readPlace _ _ _ hs)
  · exact ite_has (p := Kept Prod.fst) hs (canon_readPlace _ _ _ hs)
  · exact ite_has (p := Kept Prod.fst) hs (canon_readPlace _ _ _ hs)
  · exact canon_readPlace _ _ _ hs

/-- A read of a replay's gang keeps the form (R375). -/
theorem canon_replayRead {s : State} (gid va : Nat) (p : Place) (n : Nat) (path : Path) (hs : s.canon) :
    Kept Prod.fst (s.replayRead gid va p n path) := by
  unfold State.replayRead
  split
  · refine ite_has (p := Kept Prod.fst) hs ?_
    split
    · rename_i he; exact Kept.err he (canon_readPlace _ _ _ hs)
    · rename_i he
      have h := Kept.val he (canon_readPlace _ _ _ hs)
      exact h
  · exact canon_readHome _ _ _ _ hs

/-- A write of a replay's gang changes no memory (R375). -/
theorem canon_replayWrite {s : State} (gid : Nat) (p : Place) (bs : List Byte) (hs : s.canon) : (s.replayWrite gid p bs).canon := by
  unfold State.replayWrite
  split
  · exact hs
  · exact ite_has (p := State.canon) hs hs
  · exact hs

/-- A read past a held line keeps the form (R166). -/
theorem canon_readPast {s : State} (core ctx va pa n : Nat) (path : Path) (hs : s.canon) : Kept Prod.fst (s.readPast core ctx va pa n path) := by
  unfold State.readPast
  split
  · rename_i he; exact Kept.err he (canon_readPlace _ _ _ hs)
  · rename_i he
    have h := Kept.val he (canon_readPlace _ _ _ hs)
    exact ite_has (p := Kept Prod.fst) h h

theorem canon_countFill {s : State} (g : Nat) (hs : s.canon) : (s.countFill g).canon := canon_count _ _ _ hs

theorem canon_readCached {s : State} (core gid ctx va pa n : Nat) (path : Path) (hs : s.canon) :
    Kept Prod.fst (s.readCached core gid ctx va pa n path) := by
  unfold State.readCached
  have h := canon_lineFor core ctx (pa / 128) (va / 128) hs
  split <;> (rename_i he; rw [he] at h)
  · exact h
  · exact canon_readHome _ _ _ _ h
  · rename_i s1 l
    have h2 := canon_count gid 3 (wordCount (l.valid &&& wordMask pa n)) h
    dsimp only at h2 ⊢
    apply ite_has (p := Kept Prod.fst)
    · exact ite_has (p := Kept Prod.fst) h2 h2
    · split
      · exact h2
      · have h3 := canon_countFill gid (canon_bring pa path h2)
        exact ite_has (p := Kept Prod.fst) h3 h3

/-- The issuing core's own words sent before an access that passes the L1. -/
theorem canon_own {s : State} (core n : Nat) (acc : Byte) (p : Place) (path : Path) (hs : s.canon) : Kept id (s.ownWordsHome core p n acc path) := by
  unfold State.ownWordsHome
  split
  · exact canon_evictWords core _ n acc hs
  · exact hs

/-- A team's load keeps the canonical form. -/
theorem canon_readTarget {s : State} (u : Nat) (t : Target) (n : Nat) (policy : BitVec 2) (hs : s.canon) :
    Kept Prod.fst (s.readTarget u t n policy) := by
  unfold State.readTarget
  cases t with
  | scratch off => exact ite_has (p := Kept Prod.fst) hs hs
  | vreg off => exact ite_has (p := Kept Prod.fst) hs hs
  | sreg off => exact ite_has (p := Kept Prod.fst) hs hs
  | mem va leaf pa place =>
    dsimp only
    apply ite_has (p := Kept Prod.fst) (canon_replayRead _ _ _ _ _ hs)
    apply ite_has (p := Kept Prod.fst)
    · split
      · rename_i he; exact Kept.err he (canon_own _ _ _ _ _ hs)
      rename_i he
      exact canon_readHome _ _ _ _ (Kept.val he (canon_own _ _ _ _ _ hs))
    · apply ite_has (p := Kept Prod.fst)
      · have h := canon_passL1 (s.coreOf u) pa 0x01 hs
        split <;> (rename_i he; rw [he] at h)
        · exact h
        · exact canon_readHome _ _ _ _ h
        · exact canon_readPast _ _ _ _ _ _ h
      · exact canon_readCached _ _ _ _ _ _ _ hs

theorem canon_audited {s : State} (g va : Nat) (bs : List Byte) (hs : s.canon) : (s.audited g va bs).canon := by
  unfold State.audited
  split <;> exact hs

theorem canon_sealInterval {s : State} (g : Nat) (hs : s.canon) : (s.sealInterval g).canon := by
  unfold State.sealInterval
  split <;> exact hs

theorem canon_writeUncached {s : State} (u core ctx va : Nat) (place : Place) (bs : List Byte) (path : Path) (hs : s.canon) :
    Kept id (s.writeUncached u core ctx va place bs path) := by
  unfold State.writeUncached
  split
  · rename_i he; exact Kept.err he (canon_own _ _ _ _ _ hs)
  · rename_i he; exact canon_writePlace _ _ _ _ _ _ _ (Kept.val he (canon_own _ _ _ _ _ hs))

/-- A store past a held line keeps the form (R166). -/
theorem canon_writePast {s : State} (u core ctx va pa : Nat) (bs : List Byte) (path : Path) (hs : s.canon) :
    Kept id (s.writePast u core ctx va pa bs path) := by
  unfold State.writePast
  refine Kept.foldl _ (fun _ _ => rfl) (fun a b ha => ?_) _ _ hs
  have ha : a.canon := ha
  dsimp only
  split
  · exact ha
  · exact canon_writePlace _ _ _ _ _ _ _ ha

theorem canon_writeCached {s : State} (u core gid ctx va pa : Nat) (place : Place) (bs : List Byte) (path : Path) (hs : s.canon) :
    Kept id (s.writeCached u core gid ctx va pa place bs path) := by
  unfold State.writeCached
  apply ite_has (p := Kept id)
  · exact canon_writePlace _ _ _ _ _ _ _ hs
  · have h := canon_lineFor core ctx (pa / 128) (va / 128) hs
    split <;> (rename_i he; rw [he] at h)
    · exact h
    · exact canon_writePlace _ _ _ _ _ _ _ h
    · apply ite_has (p := Kept id)
      · exact ite_has (p := State.canon) (canon_count _ _ _ h) (canon_count _ _ _ h)
      · exact canon_writePlace _ _ _ _ _ _ _ h

/-- A team's store keeps the canonical form. -/
theorem canon_writeTarget {s : State} (u : Nat) (t : Target) (bs : List Byte) (policy : BitVec 2) (hs : s.canon) :
    Kept id (s.writeTarget u t bs policy) := by
  unfold State.writeTarget
  cases t with
  | scratch off => exact hs
  | vreg off => exact hs
  | sreg off => exact hs
  | mem va leaf pa place =>
    have h0 := canon_audited (s.teamAt u).gang va bs hs
    have h1 := ite_has (p := State.canon) (c := place.seals = true) (canon_sealInterval (s.teamAt u).gang h0) h0
    dsimp only
    revert h1
    generalize (if place.seals = true then (s.audited (s.teamAt u).gang va bs).sealInterval (s.teamAt u).gang
      else s.audited (s.teamAt u).gang va bs) = x
    intro h1
    apply ite_has (p := Kept id)
    · exact canon_replayWrite _ _ _ h1
    apply ite_has (p := Kept id)
    · exact canon_writeUncached _ _ _ _ _ _ _ h1
    · apply ite_has (p := Kept id)
      · have h := canon_passL1 (s.coreOf u) pa 0x02 h1
        split <;> (rename_i he; rw [he] at h)
        · exact h
        · exact canon_writePlace _ _ _ _ _ _ _ h
        · exact canon_writePast _ _ _ _ _ _ _ h
      · exact canon_writeCached _ _ _ _ _ _ _ _ _ h1

theorem canon_readLanes {s : State} (u n : Nat) (policy : BitVec 2) (ts : List (Nat × Target)) (hs : s.canon) :
    Kept Prod.fst (s.readLanes u n policy ts) := by
  unfold State.readLanes
  refine Kept.foldl (f := Prod.fst) _ (fun _ _ => rfl) (fun r b hr => ?_) ts _ hs
  obtain ⟨s1, out⟩ := r
  dsimp only
  split
  · rename_i he; exact Kept.err he (canon_readTarget u b.2 n policy hr)
  rename_i he
  have hx := Kept.val he (canon_readTarget u b.2 n policy hr)
  exact hx

theorem canon_writeLanes {s : State} (u : Nat) (policy : BitVec 2) (ts : List (Nat × Target × List Byte)) (hs : s.canon) :
    Kept id (s.writeLanes u policy ts) := by
  unfold State.writeLanes
  exact Kept.foldl _ (fun _ _ => rfl) (fun a b ha => canon_writeTarget u b.2.1 b.2.2 policy ha) ts _ hs

/-! ### Accesses of engines -/

theorem canon_enginePlace {s : State} (core : Option Nat) (gid ctx : Nat) (a : Access) (acc : Byte) (va n : Nat) (hs : s.canon) :
    Kept Prod.fst (s.enginePlace core gid ctx a acc va n) := by
  unfold State.enginePlace
  apply ite_has (p := Kept Prod.fst)
  · dsimp only
    refine ite_has (p := Kept Prod.fst) ?_ ?_
    · exact hs
    · generalize (decide (apertureV ≤ va - windowBase) && decide (va - windowBase < apertureV + (s.gangAt gid).vregs * (s.gangAt gid).tw * 4)
        || decide (apertureS ≤ va - windowBase) && decide (va - windowBase < apertureS + 512)) = c
      cases c <;> exact hs
  · split
    · rename_i he; exact Kept.err he (canon_translate _ _ _ _ _ hs)
    rename_i he
    have hr := Kept.val he (canon_translate _ _ _ _ _ hs)
    split <;> exact hr

theorem canon_engineRun {s : State} (core gid ctx : Nat) (p : Place) (n : Nat) (acc : Byte) (path : Path) (hs : s.canon) :
    Kept Prod.fst (s.engineRun core gid ctx p n acc path) := by
  unfold State.engineRun
  dsimp only
  have h1 : Kept id (if (s.gangAt gid).replay = true then .ok s else s.ownWordsHome core p n acc path : Res State) :=
    ite_has (p := Kept id) hs (canon_own _ _ _ _ _ hs)
  split
  · rename_i he; exact Kept.err he h1
  rename_i he
  have h2 := Kept.val he h1
  split
  · rename_i he; exact Kept.err he (canon_readPlace _ _ _ h2)
  rename_i he
  have h3 := Kept.val he (canon_readPlace _ _ _ h2)
  split
  · exact h3
  · exact ite_has (p := State.canon) (canon_mapGang gid (fun g => { g with lines := g.lines + 1 }) h3) h3
  · exact h3

theorem canon_engineReadMarked {s : State} (core gid ctx va n : Nat) (acc : Byte) (hs : s.canon) :
    Kept Prod.fst (s.engineReadMarked core gid ctx va n acc) := by
  unfold State.engineReadMarked
  refine Kept.foldl (f := Prod.fst) _ (fun _ _ => rfl) (fun r b hr => ?_) (lineRuns va n) _ hs
  obtain ⟨s1, out⟩ := r
  dsimp only
  split
  · rename_i he; exact Kept.err he (canon_enginePlace _ _ _ _ _ _ _ hr)
  rename_i he
  have hx := Kept.val he (canon_enginePlace _ _ _ _ _ _ _ hr)
  split
  · rename_i he; exact Kept.err he (canon_engineRun _ _ _ _ _ _ _ hx)
  · rename_i he
    have hy := Kept.val he (canon_engineRun _ _ _ _ _ _ _ hx)
    exact hy

/-- An engine's read keeps the canonical form. -/
theorem canon_engineRead {s : State} (core gid ctx va n : Nat) (acc : Byte) (hs : s.canon) :
    Kept Prod.fst (s.engineRead core gid ctx va n acc) := by
  unfold State.engineRead
  split
  · rename_i he; exact Kept.err he (canon_engineReadMarked _ _ _ _ _ _ hs)
  rename_i he
  have hr := Kept.val he (canon_engineReadMarked _ _ _ _ _ _ hs)
  split <;> exact hr

theorem canon_giveUpWords {s : State} (core pa n : Nat) (hs : s.canon) : Kept id (s.giveUpWords core pa n) := by
  unfold State.giveUpWords
  have h := canon_evictWords core pa n 0x20 hs
  split <;> (rename_i he; rw [he] at h; exact h)

theorem canon_beforeWrite {s : State} (core : Option Nat) (gid : Nat) (p : Place) (n : Nat) (hs : s.canon) :
    Kept id (s.beforeWrite core gid p n) := by
  unfold State.beforeWrite
  split
  · exact canon_giveUpWords _ _ _ hs
  · exact ite_has (p := State.canon) (canon_sealInterval _ hs) hs
  · exact hs

/-- An engine's write keeps the canonical form. -/
theorem canon_engineWriteMarked {s : State} (core : Option Nat) (gid ctx : Nat) (by_ : Writer) (va : Nat) (bs : List (Byte × Bool)) (acc : Byte)
    (hs : s.canon) : Kept id (s.engineWriteMarked core gid ctx by_ va bs acc) := by
  unfold State.engineWriteMarked
  refine Kept.foldl _ (fun _ _ => rfl) (fun a b ha => ?_) (lineRuns va bs.length) _ hs
  have ha : a.canon := ha
  dsimp only
  split
  · rename_i he; exact Kept.err he (canon_enginePlace _ _ _ _ _ _ _ ha)
  rename_i he
  have hx := Kept.val he (canon_enginePlace _ _ _ _ _ _ _ ha)
  apply ite_has (p := Kept id)
  · exact canon_replayWrite _ _ _ hx
  split
  · rename_i h2; exact Kept.err h2 (canon_beforeWrite core gid _ b.2 hx)
  · rename_i h2; exact canon_writePlace _ _ _ _ _ _ _ (Kept.val h2 (canon_beforeWrite core gid _ b.2 hx))

theorem canon_engineWrite {s : State} (core : Option Nat) (gid ctx : Nat) (by_ : Writer) (va : Nat) (bs : List Byte) (acc : Byte)
    (hs : s.canon) : Kept id (s.engineWrite core gid ctx by_ va bs acc) := canon_engineWriteMarked _ _ _ _ _ _ _ hs

end Laws

end Sys2Proof.Machine
end

