-- ==== Sys2Proof/Laws/Ops.lean ====
section
/-! SUPPORT. What the shared operations of a step leave: retirement and transfers as equations, and for every operation that ends, parks,
rolls back or settles a team, that DRAM and host memory stay in the canonical form. -/
namespace Sys2Proof.Machine

/-! ### Retirement (R124) -/

/-- A team gone on: its program counter, its state and its windows' counts; nothing else of it. -/
theorem State.goTo_eq (s : State) (next : DWord) :
    s.goTo next = s.mapTeam s.cur (fun t => { t.counted with status := .ready, stalled := none, stuck := none, regs := { t.regs with pc := next } }) := rfl

/-- An instruction that goes on reaches the next address, where that does not lie in the local window. -/
theorem State.advance_eq {s : State} (h : (s.regs.pc + 8).toNat ≠ windowBase) : s.advance = s.goTo (s.regs.pc + 8) := by
  unfold State.advance
  dsimp only
  rw [if_neg h]

/-- At the foot of the local window the dispatch ends with 0x12. -/
theorem State.advance_window {s : State} (h : (s.regs.pc + 8).toNat = windowBase) :
    s.advance = s.endTeam s.cur .windowKind s.regs.pc (s.regs.pc + 8) 0x04 (s.regs.pc + 8) := by
  unfold State.advance
  dsimp only
  rw [if_pos h]

/-- A transfer is made exactly where its target passes the checks of R124. -/
theorem State.transfer_ok {s : State} {t : Int} {link : State → State} (h : badTarget t = none) :
    s.transfer t link = .next ((link s).goTo (BitVec.ofInt 64 t)) := by
  simp [State.transfer, h]

theorem State.transfer_bad {s : State} {t : Int} {link : State → State} {c : Cause} (h : badTarget t = some c) :
    s.transfer t link = .next (s.endTeam s.cur c s.regs.pc (BitVec.ofInt 64 t) 0x04 (BitVec.ofInt 64 t)) := by
  simp [State.transfer, h]

/-- A part that does not end the step is followed by what comes after it. -/
@[simp] theorem Flow.out_ok {α : Type} (a : α) (f : α → Out) : Flow.out (.ok a) f = f a := rfl

@[simp] theorem Flow.out_error {α : Type} (s : State) (f : α → Out) : Flow.out (.error s) f = .next s := rfl

@[simp] theorem Res.out_ok {α : Type} (a : α) (f : α → Out) : Res.out (.ok a) f = f a := rfl

@[simp] theorem Res.out_error {α : Type} (e : Stop × State) (f : α → Out) : Res.out (.error e) f = .next (e.2.stopAt e.1) := rfl

/-- The check of a target, said once: a transfer is made to an aligned address below the local window. -/
theorem badTarget_none {t : Int} : badTarget t = none ↔ t % 8 = 0 ∧ 0 ≤ t ∧ t < (windowBase : Int) := by
  unfold badTarget inWindow
  have hw : (windowBase : Int) = 0x1FFFFF000000000 := rfl
  have hw' : windowBase = 0x1FFFFF000000000 := rfl
  split
  · simp_all
  · split
    · rename_i h1 h2
      simp only [Bool.or_eq_true, decide_eq_true_eq] at h2
      constructor
      · intro h; cases h
      · rintro ⟨_, h3, h4⟩; omega
    · rename_i h1 h2
      simp only [Bool.or_eq_true, decide_eq_true_eq, not_or] at h2
      split
      · rename_i h3
        simp only [Bool.and_eq_true, decide_eq_true_eq] at h3
        constructor
        · intro h; cases h
        · rintro ⟨_, h4, h5⟩; omega
      · rename_i h3
        simp only [Bool.and_eq_true, decide_eq_true_eq] at h3
        constructor
        · intro _; refine ⟨by omega, by omega, ?_⟩
          omega
        · intro _; rfl

namespace Laws

/-! ### Records, the end of a gang, parking -/

theorem canon_addRecord {s : State} (r : FaultRecord) (w : Bool) (hs : s.canon) : (s.addRecord r w).1.canon := by
  unfold State.addRecord
  dsimp only
  split <;> exact hs

theorem canon_noteTrap {s : State} (u : Nat) (c : Cause) (pc v : DWord) (hs : s.canon) : (s.noteTrap u c pc v).canon := hs

/-- The walk of a mapped page keeps the form, whether it finds a page, waits or finds none. -/
theorem canon_mappedPage {s : State} (ctx e sc i : Nat) (w : Bool) (hs : s.canon) : Kept Prod.fst (s.mappedPage ctx e sc i w) := by
  unfold State.mappedPage
  dsimp only
  split
  · exact hs
  · split
    · rename_i l _ _ _
      have h := canon_setUsed l w (canon_wakeWalk ((s.hub.mappings.get .none (64 * ctx + e)).va + 4096 * i)
        (s.walkOn none ctx ((s.hub.mappings.get .none (64 * ctx + e)).va + 4096 * i)) hs)
      split
      · rename_i he; exact Kept.err he h
      · rename_i he; have h2 := Kept.val he h; exact h2
    · exact hs
  · exact hs

theorem canon_mappedPages {s : State} (ctx e sc : Nat) (w : Bool) (hs : s.canon) : Kept Prod.fst (s.mappedPages ctx e sc w) := by
  unfold State.mappedPages
  refine Kept.foldl (f := Prod.fst) _ (fun _ _ => rfl) (fun r b hr => ?_) _ _ hs
  obtain ⟨s1, out⟩ := r
  dsimp only
  split
  · rename_i he; exact Kept.err he (canon_mappedPage ctx e sc b w hr)
  rename_i he
  have hx := Kept.val he (canon_mappedPage ctx e sc b w hr)
  exact hx

theorem canon_writeHomeFrom {s : State} (x : Gang) (r : Nat × Nat × Nat) (hs : s.canon) : (s.writeHomeFrom x r).canon :=
  canon_mapMem (foldl_keeps Mem.canon _ (fun _ _ ha => canon_markPoison _ _ ha) _ _ (canon_stateHomeWrite _ _ hs))

theorem canon_writeBackMapping {s : State} (ctx e g : Nat) (hs : s.canon) : Kept id (s.writeBackMapping ctx e g) := by
  unfold State.writeBackMapping
  have h := canon_mappedPages ctx e (s.gangAt g).scratch true hs
  dsimp only
  split
  · rename_i he; exact Kept.err he h
  · rename_i he
    have h1 := Kept.val he h
    split
    · exact h1
    · exact foldl_keeps State.canon _ (fun _ _ ha => canon_writeHomeFrom _ _ ha) _ _ h1

theorem canon_dropMapping {s : State} (core ctx e : Nat) (hs : s.canon) : (s.dropMapping core ctx e).canon := hs

theorem canon_unmapOne {s : State} (core : Nat) (m : Nat × Nat × Nat) (hs : s.canon) : Kept id (s.unmapOne core m) := by
  unfold State.unmapOne
  have h := canon_writeBackMapping m.1 m.2.1 m.2.2 hs
  split
  · rename_i he; exact Kept.err he h
  · rename_i he; exact canon_dropMapping _ _ _ (Kept.val he h)

theorem canon_unmapGang {s : State} (g : Nat) (hs : s.canon) : Kept id (s.unmapGang g) := by
  unfold State.unmapGang
  exact Kept.foldl _ (fun _ _ => rfl) (fun a b ha => canon_unmapOne _ b ha) _ _ hs

/-- The write-backs that waited keep the form. -/
theorem canon_finishUnmaps {s : State} (hs : s.canon) : s.finishUnmaps.canon := by
  unfold State.finishUnmaps
  refine foldl_keeps State.canon _ (fun a p ha => foldl_keeps State.canon _ (fun b m hb => ?_) _ _ ha) _ s hs
  split
  · have h := canon_unmapOne p.1 m hb
    split
    · rename_i he; exact Kept.val he h
    · exact hb
  · exact hb

theorem canon_dropCmds {s : State} (p : Cmd → Bool) (hs : s.canon) : (s.dropCmds p).canon := hs

theorem canon_dropStopped {s : State} (id : Nat) (hs : s.canon) : (s.dropStopped id).canon := by
  unfold State.dropStopped
  split <;> exact hs

theorem canon_holdFault {s : State} (r : FaultRecord) (page : Option (Nat × Nat)) (h : Held) (hs : s.canon) :
    (s.holdFault r page h).1.canon := by
  unfold State.holdFault
  split
  · exact hs
  · have hr := canon_addRecord r true hs
    generalize s.addRecord r true = x at hr
    exact canon_mapHub _ hr

theorem canon_settleCauses {s : State} (g : Nat) (hs : s.canon) : (s.settleCauses g).canon := by
  unfold State.settleCauses
  refine foldl_keeps State.canon _ (fun a u ha => foldl_keeps State.canon _ (fun b x hb => ?_) _ _ ha) _ s hs
  split
  · exact canon_holdFault _ _ _ hb
  · exact canon_dropStopped _ hb

theorem canon_abandonInstalls {s : State} (g : Nat) (hs : s.canon) : (s.abandonInstalls g).canon := hs

theorem canon_endGang {s : State} (g : Nat) (c : Cause) (hs : s.canon) : (s.endGang g c).canon := by
  unfold State.endGang
  have h0 := canon_settleCauses g hs
  have h1 : (if (s.gangAt g).state = .resident then (match (s.settleCauses g).unmapGang g with | .ok s1 => s1 | .error _ => s.settleCauses g)
      else s.settleCauses g).canon := by
    split
    · have h := canon_unmapGang g h0
      split
      · rename_i he; exact Kept.val he h
      · exact h0
    · exact h0
  exact canon_mapHub _ (canon_mapGang _ _ (foldl_keeps State.canon _ (fun _ _ ha => canon_mapTeam _ _ ha) _ _ h1))

theorem canon_endDispatch {s : State} (d : Nat) (c : Cause) (hs : s.canon) : (s.endDispatch d c).canon := by
  unfold State.endDispatch
  exact canon_mapDispatch _ _ (foldl_keeps State.canon _ (fun _ _ ha => canon_endGang _ _ ha) _ s hs)

/-- The end of a team by a cause keeps the canonical form. -/
theorem canon_endTeam {s : State} (u : Nat) (c : Cause) (pc v : DWord) (acc : Byte) (addr : DWord) (hs : s.canon) :
    (s.endTeam u c pc v acc addr).canon :=
  canon_endDispatch _ _ (canon_addRecord _ _ hs)

theorem canon_park {s : State} (u : Nat) (c : Cause) (kind : ParkKind) (pc v : DWord) (acc : Byte) (addr : DWord) (h : Held) (hs : s.canon) :
    (s.park u c kind pc v acc addr h).canon :=
  canon_mapTeam _ _ (canon_holdFault (s := s.noteTrap u c pc v) _ _ _ hs)

theorem canon_finishRoll {s : State} (g : Nat) (hs : s.canon) : (s.finishRoll g).canon := by
  unfold State.finishRoll
  split
  · exact hs
  · exact canon_mapGang _ _ (foldl_keeps State.canon _ (fun _ _ ha => canon_mapTeam _ _ ha) _ _ hs)

theorem canon_rollBack {s : State} (g : Nat) (hs : s.canon) : (s.rollBack g).canon := by
  unfold State.rollBack
  exact canon_finishRoll _ (canon_logEvent _ (canon_mapHub _ (canon_mapGang _ _ (foldl_keeps State.canon _ (fun _ _ ha => canon_mapTeam _ _ ha) _ _
    (show State.canon _ from hs)))))

theorem canon_consume {s : State} (u : Nat) (pc va : DWord) (acc : Byte) (hs : s.canon) : (s.consume u pc va acc).canon := by
  unfold State.consume
  dsimp only
  split
  · exact canon_rollBack _ hs
  · exact canon_endTeam _ _ _ _ _ _ hs

/-- A command's cause charged keeps the form (R359). -/
theorem canon_charge {s : State} (x : Cmd) (c : Cause) (v : DWord) (acc : Byte) (h : Option Held) (hs : s.canon) :
    (s.charge x c v acc h).canon := by
  unfold State.charge
  split
  · exact hs
  · split
    · exact canon_holdFault _ _ _ hs
    · dsimp only
      split
      · exact canon_consume _ _ _ _ hs
      · have h1 := canon_addRecord (s.commandRecord x c acc v) false hs
        split
        · exact canon_endDispatch _ _ h1
        · exact h1

theorem canon_deliverTrap {s : State} (u : Nat) (c : Cause) (n : Byte) (pc next : DWord) (uval : Option DWord) (hs : s.canon) :
    (s.deliverTrap u c n pc next uval).canon := by
  unfold State.deliverTrap
  dsimp only
  split
  · exact canon_endTeam _ _ _ _ _ _ hs
  · exact hs

theorem canon_request {s : State} (r : Option CxlRequest) (hs : s.canon) : (s.request r).canon := by
  unfold State.request
  split
  · exact hs
  · split <;> exact hs

/-- A stop of an instruction keeps the canonical form. -/
theorem canon_stopAt {s : State} (e : Stop) (hs : s.canon) : (s.stopAt e).canon := by
  unfold State.stopAt
  dsimp only
  split
  · split
    · exact canon_park _ _ _ _ _ _ _ _ hs
    · exact canon_endTeam _ _ _ _ _ _ hs
  · exact canon_request _ hs
  · exact canon_deliverTrap _ _ _ _ _ _ hs
  · exact canon_consume _ _ _ _ hs

/-! ### Operators and deferred instructions -/

theorem canon_leavePlot {s : State} (line slice : Nat) (c : SliceLine) (hs : s.canon) : (s.leavePlot line slice c).canon := by
  unfold State.leavePlot
  split
  · rename_i h
    revert h
    split
    · intro h; exact canon_mapMem (canon_setCopy _ _ _ (canon_roomIn h hs))
    · intro h; cases h
  · exact canon_mapMem (canon_evictCopy _ _ hs)

theorem canon_setPlots {s : State} (slice : Nat) (ps : List Nat) (mode : PlotMode) (hs : s.canon) : (s.setPlots slice ps mode).canon :=
  foldl_keeps State.canon _ (fun _ _ ha => canon_leavePlot _ _ _ ha) _ _ hs

theorem canon_applyWrite {s : State} (slice index : Nat) (hs : s.canon) : (s.applyWrite slice index).canon := by
  unfold State.applyWrite
  dsimp only
  (repeat' split) <;> exact hs

theorem canon_fireLine {s : State} (slice : Nat) (hs : s.canon) : (s.fireLine slice).canon := by
  unfold State.fireLine
  dsimp only
  split
  · exact hs
  · split
    · exact hs
    · exact ite_has (p := State.canon) hs hs

theorem canon_fire {s : State} (slice lines : Nat) (hs : s.canon) : (s.fire slice lines).canon := by
  induction lines generalizing s with
  | zero => exact hs
  | succ n ih => exact ite_has (p := State.canon) (canon_fireLine _ hs) (ih (canon_fireLine _ hs))

theorem canon_drainSlot {s : State} (slice slot fuel : Nat) (hs : s.canon) : (s.drainSlot slice slot fuel).canon := by
  induction fuel generalizing s with
  | zero => exact hs
  | succ f ih =>
    unfold State.drainSlot
    dsimp only
    split
    · exact ih (canon_fire _ _ hs)
    · split
      · exact ih (canon_applyWrite _ _ hs)
      · exact hs

theorem canon_removeOperator {s : State} (slice slot : Nat) (hs : s.canon) : (s.removeOperator slice slot).canon :=
  canon_setPlots _ _ _ (canon_drainSlot slice slot _ hs)

theorem canon_endInstall {s : State} (slice slot : Nat) (hs : s.canon) : (s.endInstall slice slot).canon := by
  unfold State.endInstall
  dsimp only
  split
  · exact canon_removeOperator _ _ hs
  · exact hs

theorem canon_endDeferred {s : State} (u i : Nat) (x : DWord) (hs : s.canon) : (s.endDeferred u i x).canon := hs

theorem canon_completeDeferred {s s1 : State} {u i : Nat} (h : s.completeDeferred u i = some s1) (hs : s.canon) : s1.canon := by
  unfold State.completeDeferred at h
  split at h
  · cases h
  · split at h
    · cases h; exact hs
    · cases h; exact canon_endDeferred _ _ _ (canon_endInstall _ _ hs)
    · split at h
      · cases h; exact hs
      · dsimp only at h
        split at h
        · cases h
        · split at h
          · cases h; exact hs
          · cases h; exact hs
    · split at h
      · cases h; exact hs
      · dsimp only at h
        split at h
        · cases h
        · split at h
          · cases h; exact hs
          · cases h; exact canon_endDeferred _ _ _ (canon_removeOperator _ _ hs)
    · rename_i r _
      cases r <;> cases h
      exact hs
    · rename_i id _
      have hi := canon_completeInv id hs
      split at h
      · rename_i hc; rw [hc] at hi; cases h; exact hi
      · cases h
    · cases h

theorem canon_performOperators {s : State} (u fuel : Nat) (hs : s.canon) : (s.performOperators u fuel).canon := by
  induction fuel generalizing s with
  | zero => exact hs
  | succ f ih =>
    unfold State.performOperators
    dsimp only
    split
    · rename_i s1 h
      obtain ⟨i, -, hi⟩ := List.exists_of_findSome?_eq_some h
      split at hi
      · exact ih (canon_completeDeferred hi hs)
      · cases hi
    · exact hs

/-- What a part of a step keeps: the canonical form in the state that it goes on with, which `f` takes out, and in the state in which it ends
the step. -/
def Flow.kept {α : Type} (f : α → State) (x : Flow α) : Prop := match x with | .ok a => (f a).canon | .error s => s.canon

/-- What a part of a step that goes on with a state keeps. -/
def Flow.canon (x : Flow State) : Prop := Flow.kept id x

/-- The parts of a fold that may end the step keep the form, and so does the fold. -/
theorem Flow.foldl {β : Type} (g : Flow State → β → Flow State) (he : ∀ e b, g (.error e) b = .error e)
    (h : ∀ (a : State) b, a.canon → Flow.canon (g (.ok a) b)) (l : List β) (r : Flow State) (hr : Flow.canon r) : Flow.canon (l.foldl g r) := by
  induction l generalizing r with
  | nil => exact hr
  | cons b t ih =>
    refine ih (g r b) ?_
    cases r with
    | error e => rw [he]; exact hr
    | ok a => exact h a b hr

theorem canon_settleWhere {s : State} (u : Nat) (p : Deferred → Bool) (fuel : Nat) (hs : s.canon) :
    Laws.Flow.canon (s.settleWhere u p fuel) := by
  induction fuel generalizing s with
  | zero => exact hs
  | succ f ih =>
    unfold State.settleWhere
    split
    · exact hs
    · split
      · exact hs
      · rename_i h; exact ih (canon_completeDeferred h hs)

theorem canon_settle {s : State} (u : Nat) (hs : s.canon) : Laws.Flow.canon (s.settle u) := canon_settleWhere _ _ _ hs

theorem canon_settleRegs {s : State} (u : Nat) (ns : List Nat) (hs : s.canon) : Laws.Flow.canon (s.settleRegs u ns) := by
  unfold State.settleRegs
  dsimp only
  refine canon_settleWhere _ _ _ ?_
  split
  · exact canon_performOperators _ _ hs
  · exact hs

/-! ### Windows -/

theorem canon_streamRead {s : State} (u : Nat) (st : Stream) (hs : s.canon) : Kept Prod.fst (s.streamRead u st) := by
  unfold State.streamRead
  dsimp only
  split
  · exact hs
  · split
    · rename_i he; exact Kept.err he (canon_targets _ _ _ _ _ hs)
    · rename_i he
      have h1 := Kept.val he (canon_targets _ _ _ _ _ hs)
      split
      · rename_i he; exact Kept.err he (canon_readLanes _ _ _ _ h1)
      · rename_i he; have h2 := Kept.val he (canon_readLanes _ _ _ _ h1); exact h2

theorem canon_streamOpt {s : State} (u : Nat) (x : Option Stream) (hs : s.canon) : Kept Prod.fst (s.streamOpt u x) := by
  cases x with
  | none => exact hs
  | some st => exact canon_streamRead _ _ hs

theorem canon_performPending {s : State} (u : Nat) (p : Pending) (hs : s.canon) : Kept Prod.fst (s.performPending u p) := by
  unfold State.performPending
  dsimp only
  split
  · split
    · rename_i he; exact Kept.err he (canon_targets _ _ _ _ _ hs)
    · rename_i he
      have h1 := Kept.val he (canon_targets _ _ _ _ _ hs)
      split
      · rename_i he; exact Kept.err he (canon_readLanes _ _ _ _ h1)
      · rename_i he; have h2 := Kept.val he (canon_readLanes _ _ _ _ h1); exact h2
  · split
    · rename_i he; exact Kept.err he (canon_streamOpt _ _ hs)
    · rename_i he
      have h1 := Kept.val he (canon_streamOpt _ _ hs)
      split
      · rename_i he; exact Kept.err he (canon_streamOpt _ _ h1)
      · rename_i he; have h2 := Kept.val he (canon_streamOpt _ _ h1); exact h2

theorem canon_parkWindow {s : State} (u : Nat) (w : Window) (hs : s.canon) : (s.parkWindow u w).canon := by
  unfold State.parkWindow
  split
  · exact canon_park _ _ _ _ _ _ _ _ hs
  · exact hs

theorem canon_windowStop {s s1 : State} {u : Nat} {pc : DWord} {e : Stop} (h : s.windowStop u pc e = .inl s1) (hs : s.canon) : s1.canon := by
  unfold State.windowStop at h
  split at h
  · split at h
    · cases h
    · cases h; exact canon_endTeam _ _ _ _ _ _ hs
  · cases h; exact canon_request _ hs
  · cases h; exact hs
  · cases h; exact canon_consume _ _ _ _ hs

/-- The access of a window performed or faulted, or the step ended there. -/
theorem canon_arriveOne {s : State} (u i : Nat) (fz : Bool) (hs : s.canon) : Flow.canon (s.arriveOne u i fz) := by
  unfold State.arriveOne
  split
  · exact hs
  · split
    · dsimp only
      split
      · exact canon_parkWindow _ _ hs
      · split
        · rename_i he; have h2 := Kept.val he (canon_performPending _ _ hs); exact h2
        · rename_i he
          have h1 := Kept.err he (canon_performPending _ _ hs)
          split
          · rename_i hw; exact canon_windowStop hw h1
          · exact h1
    · exact hs

theorem canon_arriveFirst {s : State} (u n : Nat) (hs : s.canon) : Flow.canon (s.arriveFirst u n) :=
  Flow.foldl _ (fun _ _ => rfl) (fun _ b ha => canon_arriveOne u b false ha) _ _ hs

theorem canon_arrive {s : State} (u i : Nat) (hs : s.canon) : Flow.canon (s.arrive u i) := canon_arriveFirst _ _ hs

theorem canon_arriveUnblocked {s : State} (u n : Nat) (fz : Bool) (hs : s.canon) : Flow.canon (s.arriveUnblocked u n fz) := by
  refine Flow.foldl _ (fun _ _ => rfl) (fun a b ha => ?_) _ _ hs
  dsimp only
  split
  · exact ite_has (p := Flow.canon) ha (canon_arriveOne _ _ _ ha)
  · exact ha

theorem canon_arriveFrozen {s : State} (u : Nat) (hs : s.canon) : Flow.canon (s.arriveFrozen u) := canon_arriveUnblocked _ _ _ hs

theorem canon_arriveAll {s : State} (u : Nat) (hs : s.canon) : Flow.canon (s.arriveAll u) := by
  unfold State.arriveAll
  have h := canon_arriveFrozen u hs
  split
  · rename_i he; rw [he] at h; exact h
  · rename_i he; rw [he] at h; exact canon_arriveFirst _ _ h

theorem canon_arriveQuiet {s : State} (u : Nat) (hs : s.canon) : Flow.canon (s.arriveQuiet u) := by
  unfold State.arriveQuiet
  have h := canon_arriveFrozen u hs
  split
  · rename_i he; rw [he] at h; exact h
  · rename_i he; rw [he] at h; exact canon_arriveUnblocked _ _ _ h

theorem canon_arriveBefore {s : State} (u : Nat) (r : Option (List (Nat × Nat))) (hs : s.canon) : Flow.canon (s.arriveBefore u r) := by
  unfold State.arriveBefore
  have h := canon_arriveAll u hs
  split
  · rename_i he; rw [he] at h; exact h
  · rename_i he; rw [he] at h
    dsimp only
    split
    · exact canon_parkWindow _ _ h
    · exact h

theorem canon_writeResult {s : State} (u : Nat) (ws : List RegWrite) (fl : Flags) (hs : s.canon) : (s.writeResult u ws fl).canon := hs

theorem canon_writeAt {s : State} (u i : Nat) (hs : s.canon) : (s.writeAt u i).canon := by
  unfold State.writeAt
  split <;> exact hs

theorem canon_closeAt {s : State} (u i : Nat) (hs : s.canon) : Flow.canon (s.closeAt u i) := by
  unfold State.closeAt
  have h := canon_arrive u i hs
  split
  · rename_i he; rw [he] at h; exact h
  · rename_i he; rw [he] at h
    split
    · exact h
    · split
      · exact canon_writeAt _ _ h
      · exact canon_parkWindow _ _ h
      · exact h

theorem canon_arriveDue {s : State} (u : Nat) (hs : s.canon) : Flow.canon (s.arriveDue u) := by
  refine Flow.foldl _ (fun _ _ => rfl) (fun a b ha => ?_) _ _ hs
  dsimp only
  split
  · exact ha
  · refine ite_has (p := Flow.canon) ha ?_
    have h := canon_arrive u b ha
    split
    · rename_i he; rw [he] at h; exact h
    · rename_i he; rw [he] at h
      split
      · exact canon_parkWindow _ _ h
      · exact h

theorem canon_writeDue {s : State} (u fuel : Nat) (hs : s.canon) : (s.writeDue u fuel).canon := by
  induction fuel generalizing s with
  | zero => exact hs
  | succ f ih =>
    unfold State.writeDue
    split
    · exact hs
    · exact ih (canon_writeAt _ _ hs)

theorem canon_closeWhere {s : State} (u : Nat) (p : Window → Bool) (fuel : Nat) (hs : s.canon) : Laws.Flow.canon (s.closeWhere u p fuel) := by
  induction fuel generalizing s with
  | zero => exact hs
  | succ f ih =>
    unfold State.closeWhere
    split
    · exact hs
    · rename_i i hi
      have h := canon_closeAt u i hs
      split
      · rename_i he; rw [he] at h; exact h
      · rename_i he; rw [he] at h; exact ih h

theorem canon_windowRoom {s : State} (u : Nat) (hs : s.canon) : Laws.Flow.canon (s.windowRoom u) := by
  unfold State.windowRoom
  split
  · exact canon_closeAt _ _ hs
  · exact hs

/-! ### Retirement -/

theorem canon_goTo {s : State} (next : DWord) (hs : s.canon) : (s.goTo next).canon := hs

theorem canon_advance {s : State} (hs : s.canon) : s.advance.canon := by
  unfold State.advance
  dsimp only
  split
  · exact canon_endTeam _ _ _ _ _ _ hs
  · exact hs

theorem canon_finishWait {s : State} (u d : Nat) (x : DWord) (hs : s.canon) : (s.finishWait u d x).canon := by
  unfold State.finishWait
  split
  · exact canon_advance (s := ({ s with cur := u } : State).setS d x) hs
  · exact hs

/-- Retirement answers a next state, and keeps the canonical form. -/
theorem canon_retireLong {s t : State} {la : BitVec 4} {res : WindowResult} (h : s.retireLong la res = .next t) (hs : s.canon) : t.canon := by
  have ha := canon_advance hs
  unfold State.retireLong at h
  dsimp only at h
  generalize s.advance = y at ha h
  (repeat' split at h) <;> first | (cases h; exact ha) | (cases h; exact canon_park _ _ _ _ _ _ _ _ ha)

theorem canon_transfer {s t : State} {x : Int} {link : State → State} (h : s.transfer x link = .next t) (hl : (link s).canon) (hs : s.canon) :
    t.canon := by
  unfold State.transfer at h
  split at h
  · cases h; exact canon_endTeam _ _ _ _ _ _ hs
  · cases h; exact hl

end Laws

end Sys2Proof.Machine
end

