-- ==== Sys2Proof/Laws/PerInstr.lean ====
section
/-! SUPPORT. Laws made instruction by instruction: the op and fields that an instruction gives to the encoder are those from which the
decoder builds it again. -/
namespace Sys2Proof.Laws

/-- What the encoder takes from an instruction gives the instruction back: an F or L word's op fits its 10 bits and its op and fields
name the instruction, and the two slots of a D word name it. A step of another agent has no word. -/
def Rebuild.Statement (i : Instr) : Prop :=
  match i.fForm with
  | some (op, o) => op < 1024 ∧ Instr.ofF op o = some i
  | none =>
    match i.lForm with
    | some (op, o) => op < 1024 ∧ Instr.ofL op o = some i
    | none =>
      match i.dForm with
      | some (a, b) => Instr.ofD a b = i
      | none => True

theorem Rebuild.sadd (o : Ops) : Rebuild.Statement (.sadd o) := ⟨by decide, rfl⟩
theorem Rebuild.saddL (o : LOps) : Rebuild.Statement (.saddL o) := ⟨by decide, rfl⟩
theorem Rebuild.ssub (o : Ops) : Rebuild.Statement (.ssub o) := ⟨by decide, rfl⟩
theorem Rebuild.smul (o : Ops) : Rebuild.Statement (.smul o) := ⟨by decide, rfl⟩
theorem Rebuild.smulL (o : LOps) : Rebuild.Statement (.smulL o) := ⟨by decide, rfl⟩
theorem Rebuild.smulh (o : Ops) : Rebuild.Statement (.smulh o) := ⟨by decide, rfl⟩
theorem Rebuild.sdiv (o : Ops) : Rebuild.Statement (.sdiv o) := ⟨by decide, rfl⟩
theorem Rebuild.srem (o : Ops) : Rebuild.Statement (.srem o) := ⟨by decide, rfl⟩
theorem Rebuild.sand (o : Ops) : Rebuild.Statement (.sand o) := ⟨by decide, rfl⟩
theorem Rebuild.sandL (o : LOps) : Rebuild.Statement (.sandL o) := ⟨by decide, rfl⟩
theorem Rebuild.sor (o : Ops) : Rebuild.Statement (.sor o) := ⟨by decide, rfl⟩
theorem Rebuild.sorL (o : LOps) : Rebuild.Statement (.sorL o) := ⟨by decide, rfl⟩
theorem Rebuild.sxor (o : Ops) : Rebuild.Statement (.sxor o) := ⟨by decide, rfl⟩
theorem Rebuild.sxorL (o : LOps) : Rebuild.Statement (.sxorL o) := ⟨by decide, rfl⟩
theorem Rebuild.sshl (o : Ops) : Rebuild.Statement (.sshl o) := ⟨by decide, rfl⟩
theorem Rebuild.sshr (o : Ops) : Rebuild.Statement (.sshr o) := ⟨by decide, rfl⟩
theorem Rebuild.ssar (o : Ops) : Rebuild.Statement (.ssar o) := ⟨by decide, rfl⟩
theorem Rebuild.smin (o : Ops) : Rebuild.Statement (.smin o) := ⟨by decide, rfl⟩
theorem Rebuild.smax (o : Ops) : Rebuild.Statement (.smax o) := ⟨by decide, rfl⟩
theorem Rebuild.scmp (o : Ops) : Rebuild.Statement (.scmp o) := ⟨by decide, rfl⟩
theorem Rebuild.slea (o : Ops) : Rebuild.Statement (.slea o) := ⟨by decide, rfl⟩
theorem Rebuild.smovi (o : LOps) : Rebuild.Statement (.smovi o) := ⟨by decide, rfl⟩
theorem Rebuild.smovhi (o : LOps) : Rebuild.Statement (.smovhi o) := ⟨by decide, rfl⟩
theorem Rebuild.br (o : LOps) : Rebuild.Statement (.br o) := ⟨by decide, rfl⟩
theorem Rebuild.bz (o : LOps) : Rebuild.Statement (.bz o) := ⟨by decide, rfl⟩
theorem Rebuild.bnz (o : LOps) : Rebuild.Statement (.bnz o) := ⟨by decide, rfl⟩
theorem Rebuild.blt (o : LOps) : Rebuild.Statement (.blt o) := ⟨by decide, rfl⟩
theorem Rebuild.bany (o : LOps) : Rebuild.Statement (.bany o) := ⟨by decide, rfl⟩
theorem Rebuild.ball (o : LOps) : Rebuild.Statement (.ball o) := ⟨by decide, rfl⟩
theorem Rebuild.bnone (o : LOps) : Rebuild.Statement (.bnone o) := ⟨by decide, rfl⟩
theorem Rebuild.jmp (o : Ops) : Rebuild.Statement (.jmp o) := ⟨by decide, rfl⟩
theorem Rebuild.call (o : LOps) : Rebuild.Statement (.call o) := ⟨by decide, rfl⟩
theorem Rebuild.ret (o : Ops) : Rebuild.Statement (.ret o) := ⟨by decide, rfl⟩
theorem Rebuild.loop (o : LOps) : Rebuild.Statement (.loop o) := ⟨by decide, rfl⟩
theorem Rebuild.exit (o : Ops) : Rebuild.Statement (.exit o) := ⟨by decide, rfl⟩
theorem Rebuild.srd (o : Ops) : Rebuild.Statement (.srd o) := ⟨by decide, rfl⟩
theorem Rebuild.swr (o : Ops) : Rebuild.Statement (.swr o) := ⟨by decide, rfl⟩
theorem Rebuild.nop (o : Ops) : Rebuild.Statement (.nop o) := ⟨by decide, rfl⟩
theorem Rebuild.trap (o : Ops) : Rebuild.Statement (.trap o) := ⟨by decide, rfl⟩
theorem Rebuild.uret (o : Ops) : Rebuild.Statement (.uret o) := ⟨by decide, rfl⟩
theorem Rebuild.ecall (o : Ops) : Rebuild.Statement (.ecall o) := ⟨by decide, rfl⟩
theorem Rebuild.halt (o : Ops) : Rebuild.Statement (.halt o) := ⟨by decide, rfl⟩
theorem Rebuild.yield (o : Ops) : Rebuild.Statement (.yield o) := ⟨by decide, rfl⟩
theorem Rebuild.evsel (o : Ops) : Rebuild.Statement (.evsel o) := ⟨by decide, rfl⟩
theorem Rebuild.evrd (o : Ops) : Rebuild.Statement (.evrd o) := ⟨by decide, rfl⟩
theorem Rebuild.ctxsave (o : Ops) : Rebuild.Statement (.ctxsave o) := ⟨by decide, rfl⟩
theorem Rebuild.ctxrst (o : Ops) : Rebuild.Statement (.ctxrst o) := ⟨by decide, rfl⟩
theorem Rebuild.resume (o : Ops) : Rebuild.Statement (.resume o) := ⟨by decide, rfl⟩
theorem Rebuild.tlbinv (o : Ops) : Rebuild.Statement (.tlbinv o) := ⟨by decide, rfl⟩
theorem Rebuild.vadd (o : Ops) : Rebuild.Statement (.vadd o) := ⟨by decide, rfl⟩
theorem Rebuild.vsub (o : Ops) : Rebuild.Statement (.vsub o) := ⟨by decide, rfl⟩
theorem Rebuild.vmul (o : Ops) : Rebuild.Statement (.vmul o) := ⟨by decide, rfl⟩
theorem Rebuild.vmulh (o : Ops) : Rebuild.Statement (.vmulh o) := ⟨by decide, rfl⟩
theorem Rebuild.vmad (o : Ops) : Rebuild.Statement (.vmad o) := ⟨by decide, rfl⟩
theorem Rebuild.vadds (o : Ops) : Rebuild.Statement (.vadds o) := ⟨by decide, rfl⟩
theorem Rebuild.vsubs (o : Ops) : Rebuild.Statement (.vsubs o) := ⟨by decide, rfl⟩
theorem Rebuild.vand (o : Ops) : Rebuild.Statement (.vand o) := ⟨by decide, rfl⟩
theorem Rebuild.vor (o : Ops) : Rebuild.Statement (.vor o) := ⟨by decide, rfl⟩
theorem Rebuild.vxor (o : Ops) : Rebuild.Statement (.vxor o) := ⟨by decide, rfl⟩
theorem Rebuild.vshl (o : Ops) : Rebuild.Statement (.vshl o) := ⟨by decide, rfl⟩
theorem Rebuild.vshr (o : Ops) : Rebuild.Statement (.vshr o) := ⟨by decide, rfl⟩
theorem Rebuild.vsar (o : Ops) : Rebuild.Statement (.vsar o) := ⟨by decide, rfl⟩
theorem Rebuild.vmin (o : Ops) : Rebuild.Statement (.vmin o) := ⟨by decide, rfl⟩
theorem Rebuild.vmax (o : Ops) : Rebuild.Statement (.vmax o) := ⟨by decide, rfl⟩
theorem Rebuild.vcmp (o : Ops) : Rebuild.Statement (.vcmp o) := ⟨by decide, rfl⟩
theorem Rebuild.vsel (o : Ops) : Rebuild.Statement (.vsel o) := ⟨by decide, rfl⟩
theorem Rebuild.vmov (o : Ops) : Rebuild.Statement (.vmov o) := ⟨by decide, rfl⟩
theorem Rebuild.fadd (o : Ops) : Rebuild.Statement (.fadd o) := ⟨by decide, rfl⟩
theorem Rebuild.fsub (o : Ops) : Rebuild.Statement (.fsub o) := ⟨by decide, rfl⟩
theorem Rebuild.fmul (o : Ops) : Rebuild.Statement (.fmul o) := ⟨by decide, rfl⟩
theorem Rebuild.ffma (o : Ops) : Rebuild.Statement (.ffma o) := ⟨by decide, rfl⟩
theorem Rebuild.fmin (o : Ops) : Rebuild.Statement (.fmin o) := ⟨by decide, rfl⟩
theorem Rebuild.fmax (o : Ops) : Rebuild.Statement (.fmax o) := ⟨by decide, rfl⟩
theorem Rebuild.fcmp (o : Ops) : Rebuild.Statement (.fcmp o) := ⟨by decide, rfl⟩
theorem Rebuild.frcp (o : Ops) : Rebuild.Statement (.frcp o) := ⟨by decide, rfl⟩
theorem Rebuild.fsqrt (o : Ops) : Rebuild.Statement (.fsqrt o) := ⟨by decide, rfl⟩
theorem Rebuild.frsq (o : Ops) : Rebuild.Statement (.frsq o) := ⟨by decide, rfl⟩
theorem Rebuild.fexp2 (o : Ops) : Rebuild.Statement (.fexp2 o) := ⟨by decide, rfl⟩
theorem Rebuild.flog2 (o : Ops) : Rebuild.Statement (.flog2 o) := ⟨by decide, rfl⟩
theorem Rebuild.fsin (o : Ops) : Rebuild.Statement (.fsin o) := ⟨by decide, rfl⟩
theorem Rebuild.fcos (o : Ops) : Rebuild.Statement (.fcos o) := ⟨by decide, rfl⟩
theorem Rebuild.ftanh (o : Ops) : Rebuild.Statement (.ftanh o) := ⟨by decide, rfl⟩
theorem Rebuild.cvt (o : Ops) : Rebuild.Statement (.cvt o) := ⟨by decide, rfl⟩
theorem Rebuild.cvts (o : Ops) : Rebuild.Statement (.cvts o) := ⟨by decide, rfl⟩
theorem Rebuild.d8pack (o : Ops) : Rebuild.Statement (.d8pack o) := ⟨by decide, rfl⟩
theorem Rebuild.d8unp (o : Ops) : Rebuild.Statement (.d8unp o) := ⟨by decide, rfl⟩
theorem Rebuild.s10mk (o : Ops) : Rebuild.Statement (.s10mk o) := ⟨by decide, rfl⟩
theorem Rebuild.s10ap (o : Ops) : Rebuild.Statement (.s10ap o) := ⟨by decide, rfl⟩
theorem Rebuild.xrot (o : Ops) : Rebuild.Statement (.xrot o) := ⟨by decide, rfl⟩
theorem Rebuild.xbfly (o : Ops) : Rebuild.Statement (.xbfly o) := ⟨by decide, rfl⟩
theorem Rebuild.xshfl (o : Ops) : Rebuild.Statement (.xshfl o) := ⟨by decide, rfl⟩
theorem Rebuild.xbcst (o : Ops) : Rebuild.Statement (.xbcst o) := ⟨by decide, rfl⟩
theorem Rebuild.xred (o : Ops) : Rebuild.Statement (.xred o) := ⟨by decide, rfl⟩
theorem Rebuild.xscan (o : Ops) : Rebuild.Statement (.xscan o) := ⟨by decide, rfl⟩
theorem Rebuild.xfind (o : Ops) : Rebuild.Statement (.xfind o) := ⟨by decide, rfl⟩
theorem Rebuild.kand (o : Ops) : Rebuild.Statement (.kand o) := ⟨by decide, rfl⟩
theorem Rebuild.kor (o : Ops) : Rebuild.Statement (.kor o) := ⟨by decide, rfl⟩
theorem Rebuild.kxor (o : Ops) : Rebuild.Statement (.kxor o) := ⟨by decide, rfl⟩
theorem Rebuild.kandn (o : Ops) : Rebuild.Statement (.kandn o) := ⟨by decide, rfl⟩
theorem Rebuild.kpop (o : Ops) : Rebuild.Statement (.kpop o) := ⟨by decide, rfl⟩
theorem Rebuild.kfirst (o : Ops) : Rebuild.Statement (.kfirst o) := ⟨by decide, rfl⟩
theorem Rebuild.emget (o : Ops) : Rebuild.Statement (.emget o) := ⟨by decide, rfl⟩
theorem Rebuild.emset (o : Ops) : Rebuild.Statement (.emset o) := ⟨by decide, rfl⟩
theorem Rebuild.emand (o : Ops) : Rebuild.Statement (.emand o) := ⟨by decide, rfl⟩
theorem Rebuild.ld (o : Ops) : Rebuild.Statement (.ld o) := ⟨by decide, rfl⟩
theorem Rebuild.st (o : Ops) : Rebuild.Statement (.st o) := ⟨by decide, rfl⟩
theorem Rebuild.lds (o : Ops) : Rebuild.Statement (.lds o) := ⟨by decide, rfl⟩
theorem Rebuild.ldsL (o : LOps) : Rebuild.Statement (.ldsL o) := ⟨by decide, rfl⟩
theorem Rebuild.sts (o : Ops) : Rebuild.Statement (.sts o) := ⟨by decide, rfl⟩
theorem Rebuild.stsL (o : LOps) : Rebuild.Statement (.stsL o) := ⟨by decide, rfl⟩
theorem Rebuild.ldl (o : Ops) : Rebuild.Statement (.ldl o) := ⟨by decide, rfl⟩
theorem Rebuild.stl (o : Ops) : Rebuild.Statement (.stl o) := ⟨by decide, rfl⟩
theorem Rebuild.pf (o : Ops) : Rebuild.Statement (.pf o) := ⟨by decide, rfl⟩
theorem Rebuild.disc (o : Ops) : Rebuild.Statement (.disc o) := ⟨by decide, rfl⟩
theorem Rebuild.flush (o : Ops) : Rebuild.Statement (.flush o) := ⟨by decide, rfl⟩
theorem Rebuild.inv (o : Ops) : Rebuild.Statement (.inv o) := ⟨by decide, rfl⟩
theorem Rebuild.atom (o : Ops) : Rebuild.Statement (.atom o) := ⟨by decide, rfl⟩
theorem Rebuild.red (o : Ops) : Rebuild.Statement (.red o) := ⟨by decide, rfl⟩
theorem Rebuild.satom (o : Ops) : Rebuild.Statement (.satom o) := ⟨by decide, rfl⟩
theorem Rebuild.fence (o : Ops) : Rebuild.Statement (.fence o) := ⟨by decide, rfl⟩
theorem Rebuild.waita (o : Ops) : Rebuild.Statement (.waita o) := ⟨by decide, rfl⟩
theorem Rebuild.trywait (o : Ops) : Rebuild.Statement (.trywait o) := ⟨by decide, rfl⟩
theorem Rebuild.barinit (o : Ops) : Rebuild.Statement (.barinit o) := ⟨by decide, rfl⟩
theorem Rebuild.bararr (o : Ops) : Rebuild.Statement (.bararr o) := ⟨by decide, rfl⟩
theorem Rebuild.bartx (o : Ops) : Rebuild.Statement (.bartx o) := ⟨by decide, rfl⟩
theorem Rebuild.barwait (o : Ops) : Rebuild.Statement (.barwait o) := ⟨by decide, rfl⟩
theorem Rebuild.barsync (o : Ops) : Rebuild.Statement (.barsync o) := ⟨by decide, rfl⟩
theorem Rebuild.bartrywait (o : Ops) : Rebuild.Statement (.bartrywait o) := ⟨by decide, rfl⟩
theorem Rebuild.cinit (o : Ops) : Rebuild.Statement (.cinit o) := ⟨by decide, rfl⟩
theorem Rebuild.pushc (o : Ops) : Rebuild.Statement (.pushc o) := ⟨by decide, rfl⟩
theorem Rebuild.popc (o : Ops) : Rebuild.Statement (.popc o) := ⟨by decide, rfl⟩
theorem Rebuild.trypopc (o : Ops) : Rebuild.Statement (.trypopc o) := ⟨by decide, rfl⟩
theorem Rebuild.fetchw (o : Ops) : Rebuild.Statement (.fetchw o) := ⟨by decide, rfl⟩
theorem Rebuild.spawn (o : Ops) : Rebuild.Statement (.spawn o) := ⟨by decide, rfl⟩
theorem Rebuild.join (o : Ops) : Rebuild.Statement (.join o) := ⟨by decide, rfl⟩
theorem Rebuild.qbind (o : Ops) : Rebuild.Statement (.qbind o) := ⟨by decide, rfl⟩
theorem Rebuild.qunbind (o : Ops) : Rebuild.Statement (.qunbind o) := ⟨by decide, rfl⟩
theorem Rebuild.qinfo (o : Ops) : Rebuild.Statement (.qinfo o) := ⟨by decide, rfl⟩
theorem Rebuild.mma (o : Ops) : Rebuild.Statement (.mma o) := ⟨by decide, rfl⟩
theorem Rebuild.mmaSp (o : Ops) : Rebuild.Statement (.mmaSp o) := ⟨by decide, rfl⟩
theorem Rebuild.mmaTri (o : Ops) : Rebuild.Statement (.mmaTri o) := ⟨by decide, rfl⟩
theorem Rebuild.scld (o : Ops) : Rebuild.Statement (.scld o) := ⟨by decide, rfl⟩
theorem Rebuild.accz (o : Ops) : Rebuild.Statement (.accz o) := ⟨by decide, rfl⟩
theorem Rebuild.accadv (o : Ops) : Rebuild.Statement (.accadv o) := ⟨by decide, rfl⟩
theorem Rebuild.epcfg (o : Ops) : Rebuild.Statement (.epcfg o) := ⟨by decide, rfl⟩
theorem Rebuild.mstat (o : Ops) : Rebuild.Statement (.mstat o) := ⟨by decide, rfl⟩
theorem Rebuild.cpy (o : Ops) : Rebuild.Statement (.cpy o) := ⟨by decide, rfl⟩
theorem Rebuild.cpyf (o : Ops) : Rebuild.Statement (.cpyf o) := ⟨by decide, rfl⟩
theorem Rebuild.cpyg (o : Ops) : Rebuild.Statement (.cpyg o) := ⟨by decide, rfl⟩
theorem Rebuild.npost (o : Ops) : Rebuild.Statement (.npost o) := ⟨by decide, rfl⟩
theorem Rebuild.nunpost (o : Ops) : Rebuild.Statement (.nunpost o) := ⟨by decide, rfl⟩
theorem Rebuild.nsend (o : Ops) : Rebuild.Statement (.nsend o) := ⟨by decide, rfl⟩
theorem Rebuild.nsendt (o : Ops) : Rebuild.Statement (.nsendt o) := ⟨by decide, rfl⟩
theorem Rebuild.ncnt (o : Ops) : Rebuild.Statement (.ncnt o) := ⟨by decide, rfl⟩
theorem Rebuild.waitc (o : Ops) : Rebuild.Statement (.waitc o) := ⟨by decide, rfl⟩
theorem Rebuild.lmreq (o : Ops) : Rebuild.Statement (.lmreq o) := ⟨by decide, rfl⟩
theorem Rebuild.lmrel (o : Ops) : Rebuild.Statement (.lmrel o) := ⟨by decide, rfl⟩
theorem Rebuild.lmin (o : Ops) : Rebuild.Statement (.lmin o) := ⟨by decide, rfl⟩
theorem Rebuild.lmout (o : Ops) : Rebuild.Statement (.lmout o) := ⟨by decide, rfl⟩
theorem Rebuild.ladd (o : Ops) : Rebuild.Statement (.ladd o) := ⟨by decide, rfl⟩
theorem Rebuild.lsub (o : Ops) : Rebuild.Statement (.lsub o) := ⟨by decide, rfl⟩
theorem Rebuild.lmul (o : Ops) : Rebuild.Statement (.lmul o) := ⟨by decide, rfl⟩
theorem Rebuild.llog (o : Ops) : Rebuild.Statement (.llog o) := ⟨by decide, rfl⟩
theorem Rebuild.lcmp (o : Ops) : Rebuild.Statement (.lcmp o) := ⟨by decide, rfl⟩
theorem Rebuild.lsel (o : Ops) : Rebuild.Statement (.lsel o) := ⟨by decide, rfl⟩
theorem Rebuild.lmm (o : Ops) : Rebuild.Statement (.lmm o) := ⟨by decide, rfl⟩
theorem Rebuild.lshf (o : Ops) : Rebuild.Statement (.lshf o) := ⟨by decide, rfl⟩
theorem Rebuild.lred (o : Ops) : Rebuild.Statement (.lred o) := ⟨by decide, rfl⟩
theorem Rebuild.lmatch (o : Ops) : Rebuild.Statement (.lmatch o) := ⟨by decide, rfl⟩
theorem Rebuild.lcnt (o : Ops) : Rebuild.Statement (.lcnt o) := ⟨by decide, rfl⟩
theorem Rebuild.ldone (o : Ops) : Rebuild.Statement (.ldone o) := ⟨by decide, rfl⟩
theorem Rebuild.opinst (o : Ops) : Rebuild.Statement (.opinst o) := ⟨by decide, rfl⟩
theorem Rebuild.opseal (o : Ops) : Rebuild.Statement (.opseal o) := ⟨by decide, rfl⟩
theorem Rebuild.opuninst (o : Ops) : Rebuild.Statement (.opuninst o) := ⟨by decide, rfl⟩
theorem Rebuild.opstat (o : Ops) : Rebuild.Statement (.opstat o) := ⟨by decide, rfl⟩
theorem Rebuild.opq (o : Ops) : Rebuild.Statement (.opq o) := ⟨by decide, rfl⟩
theorem Rebuild.nopSlot (p : Short) : Rebuild.Statement (.nopSlot p) := rfl
theorem Rebuild.vaddSlot (x : Slot) (p : Short) : Rebuild.Statement (.vaddSlot x p) := rfl
theorem Rebuild.vsubSlot (x : Slot) (p : Short) : Rebuild.Statement (.vsubSlot x p) := rfl
theorem Rebuild.vmulSlot (x : Slot) (p : Short) : Rebuild.Statement (.vmulSlot x p) := rfl
theorem Rebuild.vminSlot (x : Slot) (p : Short) : Rebuild.Statement (.vminSlot x p) := rfl
theorem Rebuild.vmaxSlot (x : Slot) (p : Short) : Rebuild.Statement (.vmaxSlot x p) := rfl
theorem Rebuild.vaddsSlot (x : Slot) (p : Short) : Rebuild.Statement (.vaddsSlot x p) := rfl
theorem Rebuild.vsubsSlot (x : Slot) (p : Short) : Rebuild.Statement (.vsubsSlot x p) := rfl
theorem Rebuild.vandSlot (x : Slot) (p : Short) : Rebuild.Statement (.vandSlot x p) := rfl
theorem Rebuild.vorSlot (x : Slot) (p : Short) : Rebuild.Statement (.vorSlot x p) := rfl
theorem Rebuild.vxorSlot (x : Slot) (p : Short) : Rebuild.Statement (.vxorSlot x p) := rfl
theorem Rebuild.vshlSlot (x : Slot) (p : Short) : Rebuild.Statement (.vshlSlot x p) := rfl
theorem Rebuild.vshrSlot (x : Slot) (p : Short) : Rebuild.Statement (.vshrSlot x p) := rfl
theorem Rebuild.vsarSlot (x : Slot) (p : Short) : Rebuild.Statement (.vsarSlot x p) := rfl
theorem Rebuild.vmovSlot (x : Slot) (p : Short) : Rebuild.Statement (.vmovSlot x p) := rfl
theorem Rebuild.faddSlot (x : Slot) (p : Short) : Rebuild.Statement (.faddSlot x p) := rfl
theorem Rebuild.fsubSlot (x : Slot) (p : Short) : Rebuild.Statement (.fsubSlot x p) := rfl
theorem Rebuild.fmulSlot (x : Slot) (p : Short) : Rebuild.Statement (.fmulSlot x p) := rfl
theorem Rebuild.fminSlot (x : Slot) (p : Short) : Rebuild.Statement (.fminSlot x p) := rfl
theorem Rebuild.fmaxSlot (x : Slot) (p : Short) : Rebuild.Statement (.fmaxSlot x p) := rfl
theorem Rebuild.saddSlot (x : Slot) (p : Short) : Rebuild.Statement (.saddSlot x p) := rfl
theorem Rebuild.ssubSlot (x : Slot) (p : Short) : Rebuild.Statement (.ssubSlot x p) := rfl
theorem Rebuild.sandSlot (x : Slot) (p : Short) : Rebuild.Statement (.sandSlot x p) := rfl
theorem Rebuild.sorSlot (x : Slot) (p : Short) : Rebuild.Statement (.sorSlot x p) := rfl
theorem Rebuild.sxorSlot (x : Slot) (p : Short) : Rebuild.Statement (.sxorSlot x p) := rfl
theorem Rebuild.sshlSlot (x : Slot) (p : Short) : Rebuild.Statement (.sshlSlot x p) := rfl
theorem Rebuild.sshrSlot (x : Slot) (p : Short) : Rebuild.Statement (.sshrSlot x p) := rfl
theorem Rebuild.ssarSlot (x : Slot) (p : Short) : Rebuild.Statement (.ssarSlot x p) := rfl
theorem Rebuild.sminSlot (x : Slot) (p : Short) : Rebuild.Statement (.sminSlot x p) := rfl
theorem Rebuild.smaxSlot (x : Slot) (p : Short) : Rebuild.Statement (.smaxSlot x p) := rfl
theorem Rebuild.longLatencyResultArrival (team window : Nat) : Rebuild.Statement (.longLatencyResultArrival team window) := trivial
theorem Rebuild.deferredDestinationWrite (team index : Nat) : Rebuild.Statement (.deferredDestinationWrite team index) := trivial
theorem Rebuild.loadStreamReadahead (team queue : Nat) : Rebuild.Statement (.loadStreamReadahead team queue) := trivial
theorem Rebuild.starvationTimerExpiry (team : Nat) : Rebuild.Statement (.starvationTimerExpiry team) := trivial
theorem Rebuild.watchdogHalf (team : Nat) : Rebuild.Statement (.watchdogHalf team) := trivial
theorem Rebuild.watchdogExpiry (team : Nat) : Rebuild.Statement (.watchdogExpiry team) := trivial
theorem Rebuild.trywaitTimeout (team : Nat) : Rebuild.Statement (.trywaitTimeout team) := trivial
theorem Rebuild.bartrywaitTimeout (team : Nat) : Rebuild.Statement (.bartrywaitTimeout team) := trivial
theorem Rebuild.waitaEvaluation (team : Nat) : Rebuild.Statement (.waitaEvaluation team) := trivial
theorem Rebuild.userInterruptDelivery (team : Nat) : Rebuild.Statement (.userInterruptDelivery team) := trivial
theorem Rebuild.engineFaultCharge (team : Nat) : Rebuild.Statement (.engineFaultCharge team) := trivial
theorem Rebuild.preemption (gang : Nat) : Rebuild.Statement (.preemption gang) := trivial
theorem Rebuild.gangRestore (image : Nat) : Rebuild.Statement (.gangRestore image) := trivial
theorem Rebuild.gangAdmission (dispatch : Nat) : Rebuild.Statement (.gangAdmission dispatch) := trivial
theorem Rebuild.blockCompaction (core : Nat) : Rebuild.Statement (.blockCompaction core) := trivial
theorem Rebuild.gangRetirement (gang : Nat) : Rebuild.Statement (.gangRetirement gang) := trivial
theorem Rebuild.dispatchCompletion (dispatch : Nat) : Rebuild.Statement (.dispatchCompletion dispatch) := trivial
theorem Rebuild.continuationRelease (queue : Nat) : Rebuild.Statement (.continuationRelease queue) := trivial
theorem Rebuild.fetchwMailboxWrite (gang : Nat) : Rebuild.Statement (.fetchwMailboxWrite gang) := trivial
theorem Rebuild.kickRegisterWrite (queue : Nat) (value : DWord) : Rebuild.Statement (.kickRegisterWrite queue value) := trivial
theorem Rebuild.dispatchPacket (queue : Nat) : Rebuild.Statement (.dispatchPacket queue) := trivial
theorem Rebuild.waitPacket (queue : Nat) : Rebuild.Statement (.waitPacket queue) := trivial
theorem Rebuild.waitPacketComplete (queue : Nat) : Rebuild.Statement (.waitPacketComplete queue) := trivial
theorem Rebuild.waitPacketTimeout (queue : Nat) : Rebuild.Statement (.waitPacketTimeout queue) := trivial
theorem Rebuild.signalPacket (queue : Nat) : Rebuild.Statement (.signalPacket queue) := trivial
theorem Rebuild.nopPacket (queue : Nat) : Rebuild.Statement (.nopPacket queue) := trivial
theorem Rebuild.malformedPacket (queue : Nat) : Rebuild.Statement (.malformedPacket queue) := trivial
theorem Rebuild.faultRecordDelivery (function : Nat) : Rebuild.Statement (.faultRecordDelivery function) := trivial
theorem Rebuild.pageWalk (core ctx : Nat) (va : DWord) (access : Access) : Rebuild.Statement (.pageWalk core ctx va access) := trivial
theorem Rebuild.tlbInvalidationComplete (id : Nat) : Rebuild.Statement (.tlbInvalidationComplete id) := trivial
theorem Rebuild.l1Drain (core line : Nat) : Rebuild.Statement (.l1Drain core line) := trivial
theorem Rebuild.requestForOwnership (slice line : Nat) (words : Word32) : Rebuild.Statement (.requestForOwnership slice line words) := trivial
theorem Rebuild.sharedRead (slice line : Nat) : Rebuild.Statement (.sharedRead slice line) := trivial
theorem Rebuild.forwardRead (line : Nat) : Rebuild.Statement (.forwardRead line) := trivial
theorem Rebuild.forwardForOwnership (line : Nat) : Rebuild.Statement (.forwardForOwnership line) := trivial
theorem Rebuild.forwardAcknowledgement (line : Nat) : Rebuild.Statement (.forwardAcknowledgement line) := trivial
theorem Rebuild.invalidation (line : Nat) : Rebuild.Statement (.invalidation line) := trivial
theorem Rebuild.invalidationAck (line : Nat) : Rebuild.Statement (.invalidationAck line) := trivial
theorem Rebuild.lineDataTransfer (line : Nat) : Rebuild.Statement (.lineDataTransfer line) := trivial
theorem Rebuild.writeBack (site : CacheSite) (line : Nat) : Rebuild.Statement (.writeBack site line) := trivial
theorem Rebuild.recall (line : Nat) : Rebuild.Statement (.recall line) := trivial
theorem Rebuild.bisnpinv (line : Nat) : Rebuild.Statement (.bisnpinv line) := trivial
theorem Rebuild.birsp (line : Nat) (dirty : List (Nat × Word32)) : Rebuild.Statement (.birsp line dirty) := trivial
theorem Rebuild.hostMemRead (at_ : HostAddr) (length : Nat) (cached exclusive : Bool) : Rebuild.Statement (.hostMemRead at_ length cached exclusive) := trivial
theorem Rebuild.hostMemWrite (at_ : HostAddr) (bytes : List (Option Byte)) : Rebuild.Statement (.hostMemWrite at_ bytes) := trivial
theorem Rebuild.atomicopCompletion (team : Nat) (status : BitVec 3) (old : DWord) : Rebuild.Statement (.atomicopCompletion team status old) := trivial
theorem Rebuild.atomicopTimeout (team : Nat) : Rebuild.Statement (.atomicopTimeout team) := trivial
theorem Rebuild.applySlotWrite (slice index : Nat) : Rebuild.Statement (.applySlotWrite slice index) := trivial
theorem Rebuild.operatorFire (run : FireRun) : Rebuild.Statement (.operatorFire run) := trivial
theorem Rebuild.copyCommandStart (core command runs : Nat) : Rebuild.Statement (.copyCommandStart core command runs) := trivial
theorem Rebuild.copyCommandComplete (core command : Nat) : Rebuild.Statement (.copyCommandComplete core command) := trivial
theorem Rebuild.matrixCommandStart (core : Nat) : Rebuild.Statement (.matrixCommandStart core) := trivial
theorem Rebuild.emulationComplete (core : Nat) (firmware : Option Emulated) : Rebuild.Statement (.emulationComplete core firmware) := trivial
theorem Rebuild.epilogueDrainStart (core : Nat) : Rebuild.Statement (.epilogueDrainStart core) := trivial
theorem Rebuild.epilogueDrainEnd (core : Nat) : Rebuild.Statement (.epilogueDrainEnd core) := trivial
theorem Rebuild.loamCommandPerform (slice core command runs : Nat) : Rebuild.Statement (.loamCommandPerform slice core command runs) := trivial
theorem Rebuild.networkCommandAccept (core : Nat) : Rebuild.Statement (.networkCommandAccept core) := trivial
theorem Rebuild.packetArrival (conn seq buffer offset : Nat) (bytes : List Byte) : Rebuild.Statement (.packetArrival conn seq buffer offset bytes) := trivial
theorem Rebuild.sendAcknowledgement (conn send : Nat) (status : Byte) : Rebuild.Statement (.sendAcknowledgement conn send status) := trivial
theorem Rebuild.connectionFailure (change : ConnChange) : Rebuild.Statement (.connectionFailure change) := trivial
theorem Rebuild.nunpostComplete (conn buffer : Nat) : Rebuild.Statement (.nunpostComplete conn buffer) := trivial
theorem Rebuild.replayAudit (dispatch glin core : Nat) : Rebuild.Statement (.replayAudit dispatch glin core) := trivial
theorem Rebuild.unattributableError (scope : ErrorScope) : Rebuild.Statement (.unattributableError scope) := trivial
theorem Rebuild.mgmtResume (function id : Nat) : Rebuild.Statement (.mgmtResume function id) := trivial
theorem Rebuild.mgmtResumeKill (function id : Nat) : Rebuild.Statement (.mgmtResumeKill function id) := trivial
theorem Rebuild.icmdVa (function : Nat) : Rebuild.Statement (.icmdVa function) := trivial
theorem Rebuild.icmdCtx (function : Nat) : Rebuild.Statement (.icmdCtx function) := trivial
theorem Rebuild.icmdAll (function : Nat) : Rebuild.Statement (.icmdAll function) := trivial
theorem Rebuild.opslotUninst (slice slot : Nat) : Rebuild.Statement (.opslotUninst slice slot) := trivial
theorem Rebuild.bedDestroy (slice bed : Nat) : Rebuild.Statement (.bedDestroy slice bed) := trivial
theorem Rebuild.biasToDevice (region : Nat) : Rebuild.Statement (.biasToDevice region) := trivial
theorem Rebuild.biasToHost (region : Nat) : Rebuild.Statement (.biasToHost region) := trivial
theorem Rebuild.biasFlipComplete (region : Nat) : Rebuild.Statement (.biasFlipComplete region) := trivial
theorem Rebuild.placementMaskLowWrite (function set : Nat) (value : DWord) : Rebuild.Statement (.placementMaskLowWrite function set value) := trivial
theorem Rebuild.placementMaskHighWrite (function set : Nat) (value : DWord) : Rebuild.Statement (.placementMaskHighWrite function set value) := trivial
theorem Rebuild.islandRequestNominal (island : Nat) : Rebuild.Statement (.islandRequestNominal island) := trivial
theorem Rebuild.islandRequestHalf (island : Nat) : Rebuild.Statement (.islandRequestHalf island) := trivial
theorem Rebuild.islandRequestQuarter (island : Nat) : Rebuild.Statement (.islandRequestQuarter island) := trivial
theorem Rebuild.islandRequestGate (island : Nat) : Rebuild.Statement (.islandRequestGate island) := trivial
theorem Rebuild.islandWake (island : Nat) : Rebuild.Statement (.islandWake island) := trivial
theorem Rebuild.thermalThrottle (island : Nat) (limit : BitVec 2) : Rebuild.Statement (.thermalThrottle island limit) := trivial
theorem Rebuild.coreRetest (core : Nat) (failure : Option TestFailure) : Rebuild.Statement (.coreRetest core failure) := trivial
theorem Rebuild.attestationRequest (pa : Nat) : Rebuild.Statement (.attestationRequest pa) := trivial
theorem Rebuild.attestationReportDone : Rebuild.Statement (.attestationReportDone) := trivial
theorem Rebuild.mgmtRegisterWrite (writer : MgmtWriter) (offset : Nat) (value : HubStore) :
    Rebuild.Statement (.mgmtRegisterWrite writer offset value) := trivial
theorem Rebuild.functionLevelReset (function : Nat) : Rebuild.Statement (.functionLevelReset function) := trivial
theorem Rebuild.powerOnReset (images : List FirmwareImage) : Rebuild.Statement (.powerOnReset images) := trivial
theorem Rebuild.selfTestComplete (failure : Option TestFailure) : Rebuild.Statement (.selfTestComplete failure) := trivial
theorem Rebuild.illegalInstruction (cause : Cause) (word : DWord) : Rebuild.Statement (.illegalInstruction cause word) := trivial
theorem Rebuild.uncorrectableError (site : ErrorSite) (correctable : Bool) : Rebuild.Statement (.uncorrectableError site correctable) := trivial
theorem Rebuild.hostSnoop (line : Nat) (invalidate : Bool) : Rebuild.Statement (.hostSnoop line invalidate) := trivial
theorem Rebuild.cxlCacheResponse (line : Nat) (response : CxlResponse) : Rebuild.Statement (.cxlCacheResponse line response) := trivial
theorem Rebuild.ownershipTimeout (team : Nat) : Rebuild.Statement (.ownershipTimeout team) := trivial
theorem Rebuild.packetRetransmission (conn seq buffer offset : Nat) (bytes : List Byte) : Rebuild.Statement (.packetRetransmission conn seq buffer offset bytes) := trivial
theorem Rebuild.hardwarePrefetch (core : Nat) (ctx : Nat) (va : DWord) (intoL1 : Bool) : Rebuild.Statement (.hardwarePrefetch core ctx va intoL1) := trivial
theorem Rebuild.queueRecordWrite (queue : Nat) (valid suspended : Bool) : Rebuild.Statement (.queueRecordWrite queue valid suspended) := trivial
theorem Rebuild.mappingValidClear (ctx entry : Nat) : Rebuild.Statement (.mappingValidClear ctx entry) := trivial
theorem Rebuild.mgmtGangRestore (area : DWord) (ctx : Nat) : Rebuild.Statement (.mgmtGangRestore area ctx) := trivial
theorem Rebuild.hostAtomicop (op : HostAtomic) (at_ : HostAddr) (size : Nat) (operand compare : DWord) : Rebuild.Statement (.hostAtomicop op at_ size operand compare) := trivial

end Sys2Proof.Laws
end

