-- ==== Sys2Proof/Safety.lean ====
section
/-! DEFINITION. What a safe run is: every step answers a next state, so no turn names a team that the device does not hold. -/
namespace Sys2Proof.Machine

/-- The step at a state answers a next state. -/
def goesOn (s : State) : Prop := ∃ t, step s = .next t

/-- The states that a run of `n` steps reaches, as a relation: every step of it answers a next state. -/
def reaches (n : Nat) (s t : State) : Prop :=
  match n with
  | 0 => s = t
  | k + 1 => ∃ m, step s = .next m ∧ reaches k m t

end Sys2Proof.Machine
end

