-- ==== Sys2Proof/Tests/Slice0.lean ====
section
/-! SUPPORT. Tests of the model: well-formedness and decoding against words of the manual, one witness for the hypotheses of every
statement, and single steps on small states with results worked out from the manual. -/
namespace Sys2Proof.Tests

set_option Elab.async false
open Sys2Proof.Machine Sys2Proof.Claims

/-! ### Well-formedness -/

/-- The fields of a word, with nothing in its variant, mode, mask and la. -/
def ops (d : Dst) (a b : Src) (ty : ElemType := .untyped) : Ops := ⟨d, a, b, 0, ty, 0, none, 0⟩

/-- Every instruction of the list is refused for a team of an unprivileged context with 16 vector registers and 32 lanes. -/
def allRefused (l : List Instr) : Bool := l.all (fun i => !i.wellFormed ⟨false, 16, 32, 0⟩)

/-- Steps 2 and 3 of R74: privilege, a modifier bit, a type, a mode, a mask, a field of kind none, la. -/
theorem test_wellFormed_refuses_fields : allRefused [
    .ctxsave (ops (.reg 1) (.reg 2) (.reg 3)),
    .sadd (ops (.queue 1) (.reg 2) (.reg 3) .s64), .vmad (ops (.queue 1) (.reg 2) (.reg 3) .s32), .sadd (ops (.reg 1) (.scalar 2) (.reg 3) .s64),
    .sadd (ops (.reg 1) (.reg 2) (.reg 3) .s32), .nop (ops (.reg 0) (.reg 0) (.reg 0) .n8),
    .vadd { ops (.reg 1) (.reg 2) (.reg 3) .s32 with mode := 1 },
    .sadd { ops (.reg 1) (.reg 2) (.reg 3) .s64 with mask := some 1 }, .srd { ops (.reg 1) (.reg 2) (.reg 0) with mask := some 1 },
    .jmp (ops (.reg 1) (.reg 2) (.reg 3)), .emset (ops (.reg 1) (.reg 2) (.reg 0)),
    .vadd { ops (.reg 1) (.reg 2) (.reg 3) .s32 with la := 1 }] = true := by decide +kernel

/-- Step 5 of R74: a register outside its kind, for every kind of register field. -/
theorem test_wellFormed_refuses_registers : allRefused [
    .vadd (ops (.reg 16) (.reg 2) (.reg 3) .s32), .vadd (ops (.reg 1) (.reg 16) (.reg 3) .s32), .vadd (ops (.reg 1) (.reg 2) (.scalar 64) .s32),
    .sadd (ops (.reg 64) (.reg 2) (.reg 3) .s64), .kand (ops (.reg 8) (.reg 2) (.reg 3)), .bararr (ops (.reg 1) (.reg 16) (.reg 0)),
    .popc (ops (.reg 1) (.reg 8) (.reg 0)), .qunbind (ops (.reg 16) (.reg 0) (.reg 0)), .accz (ops (.queue 16) (.reg 0) (.reg 0)),
    .ladd (ops (.queue 1) (.reg 3) (.reg 0)), .cpy (ops (.queue 1) (.reg 9) (.reg 3)), .nsend (ops (.queue 1) (.reg 6) (.reg 3)),
    .srd (ops (.reg 1) (.reg 0x0E) (.reg 0)), .swr (ops (.reg 0x16) (.reg 1) (.reg 0)), .swr (ops (.reg 3) (.reg 1) (.reg 0))] = true := by
  decide +kernel

/-- What instructions refuse of themselves: variants, register pairs and groups, conversion types, stream types. -/
theorem test_wellFormed_refuses_own : allRefused [
    .scmp { ops (.reg 1) (.reg 2) (.reg 3) .s64 with var := 6 }, .sadd { ops (.reg 1) (.reg 2) (.reg 3) .s64 with var := 1 },
    .cvt { ops (.reg 1) (.reg 2) (.reg 0) .f32 with var := 11 }, .cvt { ops (.reg 1) (.reg 2) (.reg 0) .s32 with var := 7, mode := 1 },
    .xrot { ops (.reg 1) (.reg 2) (.reg 3) .s32 with var := 6 }, .xred { ops (.reg 1) (.reg 2) (.reg 0) .f32 with var := 3 },
    .ld { ops (.reg 1) (.reg 2) (.reg 3) .n32 with var := 1 }, .ld { ops (.reg 1) (.reg 2) (.imm 3) .n32 with var := 4 },
    .ld (ops (.reg 1) (.reg 2) (.reg 3) .n64), .atom { ops (.reg 1) (.reg 2) (.reg 3) .n32 with var := 7 },
    .red { ops (.reg 2) (.reg 2) (.reg 3) .n32 with var := 7 }, .satom { ops (.reg 1) (.reg 2) (.reg 3) .n32 with var := 7 },
    .fence { ops (.reg 0) (.reg 0) (.reg 0) with var := 5 }, .trywait { ops (.reg 1) (.reg 2) (.reg 3) .n32 with var := 3 },
    .qbind { ops (.reg 1) (.reg 0) (.reg 0) with var := 8 }, .qbind { ops (.reg 1) (.reg 2) (.reg 3) with var := 1 },
    .opinst { ops (.reg 1) (.reg 2) (.reg 3) .f16 with var := 11 }] = true := by decide +kernel

/-- L words and D words: a field of kind none, la, a register out of range; a bank, one destination twice, a mask or sb in a scalar slot. -/
theorem test_wellFormed_refuses_long_and_dual : allRefused [
    .br ⟨1, 0, 0, 0⟩, .saddL ⟨1, 2, 3, 1⟩, .saddL ⟨64, 2, 3, 0⟩, .bany ⟨0, 8, 0, 0⟩,
    .vaddSlot ⟨2, .reg 0, none, 0⟩ .nop, .nopSlot (.op .vadd ⟨2, .reg 1, none, 0⟩), .vaddSlot ⟨0, .reg 2, none, 0⟩ .nop,
    .saddSlot ⟨4, .reg 5, none, 0⟩ (.op .ssub ⟨4, .reg 5, none, 0⟩), .saddSlot ⟨4, .reg 5, some 1, 0⟩ .nop, .saddSlot ⟨4, .scalar 5, none, 0⟩ .nop,
    .vaddSlot ⟨0, .reg 1, none, 2⟩ .nop, .faddSlot ⟨0, .reg 1, none, 0⟩ .nop, .vaddSlot ⟨16, .reg 1, none, 0⟩ .nop] = true := by decide +kernel

/-! ### Decoding -/

/-- Every word decodes to its instruction, and the instruction encodes to it. -/
def words : List (DWord × Instr) → Prop
  | [] => True
  | p :: rest => (decode Env.widest p.1 = .ok p.2 ∧ encode p.2 = some p.1) ∧ words rest

/-- Every word is refused with its cause. -/
def refusals (env : Env) : List (DWord × Cause) → Prop
  | [] => True
  | p :: rest => decode env p.1 = .error p.2 ∧ refusals env rest

/-- Format 11, an op that is not assigned, bits [3:0], a reserved type, a privileged op, ks without ke, sb with ib, an illegal pair, a
register out of range (R52 to R56, R65, R72 to R74). -/
theorem test_decode_refuses : refusals ⟨false, 16, 32, 0⟩ [
    (0xC000000000000000, .illegalInstruction), (0x3C00000000000000, .illegalInstruction), (0x0880000000000001, .illegalInstruction),
    (0x00000506080D0000, .illegalInstruction), (0x0900050607000000, .illegalInstruction), (0x0C00050603030010, .illegalInstruction),
    (0x0C00050603031400, .illegalInstruction), (0x4082810000000000, .illegalPair), (0x0C00100603030000, .illegalRegister)] :=
  ⟨rfl, rfl, rfl, rfl, rfl, rfl, rfl, rfl, rfl, trivial⟩

/-- Words of the scalar instructions, by the layouts of R54, R62 and R63 and the codes of R72 and R66. -/
theorem test_decode_scalar : words [
    (0x0000050608040000, .sadd ⟨.reg 5, .reg 6, .reg 8, 0, .s64, 0, none, 0⟩),
    (0x80000404000000C8, .saddL ⟨4, 4, 0xC8, 0⟩),
    (0x0010070908080000, .ssub ⟨.reg 7, .reg 9, .reg 8, 0, .n64, 0, none, 0⟩),
    (0x00200406FE040400, .smul ⟨.reg 4, .reg 6, .imm 254, 0, .s64, 0, none, 0⟩),
    (0x80200305FFFFFFF9, .smulL ⟨3, 5, 0xFFFFFFF9, 0⟩),
    (0x0030053F08080000, .smulh ⟨.reg 5, .reg 63, .reg 8, 0, .n64, 0, none, 0⟩),
    (0x0040058008040800, .sdiv ⟨.reg 5, .imm 128, .reg 8, 0, .s64, 0, none, 0⟩),
    (0x0050050608080000, .srem ⟨.reg 5, .reg 6, .reg 8, 0, .n64, 0, none, 0⟩),
    (0x0060010203040000, .sand ⟨.reg 1, .reg 2, .reg 3, 0, .s64, 0, none, 0⟩),
    (0x806009080000FF00, .sandL ⟨9, 8, 0xFF00, 0⟩),
    (0x0070040506080000, .sor ⟨.reg 4, .reg 5, .reg 6, 0, .n64, 0, none, 0⟩),
    (0x8070070800000001, .sorL ⟨7, 8, 0x1, 0⟩),
    (0x00800A0B0C040000, .sxor ⟨.reg 10, .reg 11, .reg 12, 0, .s64, 0, none, 0⟩),
    (0x80800D0EFFFFFFFF, .sxorL ⟨13, 14, 0xFFFFFFFF, 0⟩),
    (0x009005063F040400, .sshl ⟨.reg 5, .reg 6, .imm 63, 0, .s64, 0, none, 0⟩),
    (0x00A0060708080000, .sshr ⟨.reg 6, .reg 7, .reg 8, 0, .n64, 0, none, 0⟩),
    (0x00B0050708040000, .ssar ⟨.reg 5, .reg 7, .reg 8, 0, .s64, 0, none, 0⟩),
    (0x00C0050609040000, .smin ⟨.reg 5, .reg 6, .reg 9, 0, .s64, 0, none, 0⟩),
    (0x00D005060A080000, .smax ⟨.reg 5, .reg 6, .reg 10, 0, .n64, 0, none, 0⟩),
    (0x00E0060405240000, .scmp ⟨.reg 6, .reg 4, .reg 5, 2, .s64, 0, none, 0⟩),
    (0x00F0100302A80000, .slea ⟨.reg 16, .reg 3, .reg 2, 10, .n64, 0, none, 0⟩),
    (0x8100050012345678, .smovi ⟨5, 0, 0x12345678, 0⟩),
    (0x8110030001FFFFF0, .smovhi ⟨3, 0, 0x1FFFFF0, 0⟩)] :=
  ⟨⟨rfl, rfl⟩, ⟨rfl, rfl⟩, ⟨rfl, rfl⟩, ⟨rfl, rfl⟩, ⟨rfl, rfl⟩, ⟨rfl, rfl⟩, ⟨rfl, rfl⟩, ⟨rfl, rfl⟩, ⟨rfl, rfl⟩, ⟨rfl, rfl⟩, ⟨rfl, rfl⟩, ⟨rfl, rfl⟩, ⟨rfl, rfl⟩, ⟨rfl, rfl⟩, ⟨rfl, rfl⟩, ⟨rfl, rfl⟩, ⟨rfl, rfl⟩, ⟨rfl, rfl⟩, ⟨rfl, rfl⟩, ⟨rfl, rfl⟩, ⟨rfl, rfl⟩, ⟨rfl, rfl⟩, ⟨rfl, rfl⟩, trivial⟩

/-- Words of the control instructions, by the layouts of R54, R62 and R63 and the codes of R72 and R66. -/
theorem test_decode_control : words [
    (0x84000000FFFFFFFD, .br ⟨0, 0, 0xFFFFFFFD, 0⟩),
    (0x8410000200000007, .bz ⟨0, 2, 0x7, 0⟩),
    (0x84200005FFFFFFFE, .bnz ⟨0, 5, 0xFFFFFFFE, 0⟩),
    (0x8430040500000009, .blt ⟨4, 5, 0x9, 0⟩),
    (0x8440000100000002, .bany ⟨0, 1, 0x2, 0⟩),
    (0x84500007FFFFFFFE, .ball ⟨0, 7, 0xFFFFFFFE, 0⟩),
    (0x8460000300000004, .bnone ⟨0, 3, 0x4, 0⟩),
    (0x04703F0500000000, .jmp ⟨.reg 63, .reg 5, .reg 0, 0, .untyped, 0, none, 0⟩),
    (0x84803F0000000064, .call ⟨63, 0, 0x64, 0⟩),
    (0x0490003F00000000, .ret ⟨.reg 0, .reg 63, .reg 0, 0, .untyped, 0, none, 0⟩),
    (0x84A00400FFFFFFFF, .loop ⟨4, 0, 0xFFFFFFFF, 0⟩),
    (0x04B0000000000000, .exit ⟨.reg 0, .reg 0, .reg 0, 0, .untyped, 0, none, 0⟩)] :=
  ⟨⟨rfl, rfl⟩, ⟨rfl, rfl⟩, ⟨rfl, rfl⟩, ⟨rfl, rfl⟩, ⟨rfl, rfl⟩, ⟨rfl, rfl⟩, ⟨rfl, rfl⟩, ⟨rfl, rfl⟩, ⟨rfl, rfl⟩, ⟨rfl, rfl⟩, ⟨rfl, rfl⟩, ⟨rfl, rfl⟩, trivial⟩

/-- Words of the system instructions, by the layouts of R54, R62 and R63 and the codes of R72 and R66. -/
theorem test_decode_system : words [
    (0x0802090D00000000, .srd ⟨.reg 9, .reg 13, .reg 0, 0, .untyped, 0, none, 2⟩),
    (0x0810150900000800, .swr ⟨.reg 21, .imm 9, .reg 0, 0, .untyped, 0, none, 0⟩),
    (0x0880000000000000, .nop ⟨.reg 0, .reg 0, .reg 0, 0, .untyped, 0, none, 0⟩),
    (0x0890000900000000, .trap ⟨.reg 0, .reg 9, .reg 0, 0, .untyped, 0, none, 0⟩),
    (0x08A0000000000000, .uret ⟨.reg 0, .reg 0, .reg 0, 0, .untyped, 0, none, 0⟩),
    (0x08B0050603000000, .ecall ⟨.reg 5, .reg 6, .reg 3, 0, .untyped, 0, none, 0⟩),
    (0x08C0000700000000, .halt ⟨.reg 0, .reg 7, .reg 0, 0, .untyped, 0, none, 0⟩),
    (0x08D0000000000000, .yield ⟨.reg 0, .reg 0, .reg 0, 0, .untyped, 0, none, 0⟩),
    (0x08E0050400300800, .evsel ⟨.reg 5, .imm 4, .reg 0, 3, .untyped, 0, none, 0⟩),
    (0x08F0060000300000, .evrd ⟨.reg 6, .reg 0, .reg 0, 3, .untyped, 0, none, 0⟩),
    (0x0900050607000000, .ctxsave ⟨.reg 5, .reg 6, .reg 7, 0, .untyped, 0, none, 0⟩),
    (0x0910050600000000, .ctxrst ⟨.reg 5, .reg 6, .reg 0, 0, .untyped, 0, none, 0⟩),
    (0x0920050607100000, .resume ⟨.reg 5, .reg 6, .reg 7, 1, .untyped, 0, none, 0⟩),
    (0x0930050607000000, .tlbinv ⟨.reg 5, .reg 6, .reg 7, 0, .untyped, 0, none, 0⟩)] :=
  ⟨⟨rfl, rfl⟩, ⟨rfl, rfl⟩, ⟨rfl, rfl⟩, ⟨rfl, rfl⟩, ⟨rfl, rfl⟩, ⟨rfl, rfl⟩, ⟨rfl, rfl⟩, ⟨rfl, rfl⟩, ⟨rfl, rfl⟩, ⟨rfl, rfl⟩, ⟨rfl, rfl⟩, ⟨rfl, rfl⟩, ⟨rfl, rfl⟩, ⟨rfl, rfl⟩, trivial⟩

/-- Words of the vector integer instructions, by the layouts of R54, R62 and R63 and the codes of R72 and R66. -/
theorem test_decode_vector_integer : words [
    (0x0C000506FD030400, .vadd ⟨.reg 5, .reg 6, .imm 253, 0, .s32, 0, none, 0⟩),
    (0x0C10010203070090, .vsub ⟨.reg 1, .reg 2, .reg 3, 0, .n32, 0, some 1, 0⟩),
    (0x0C20040506031000, .vmul ⟨.reg 4, .reg 5, .scalar 6, 0, .s32, 0, none, 0⟩),
    (0x0C30070809070000, .vmulh ⟨.reg 7, .reg 8, .reg 9, 0, .n32, 0, none, 0⟩),
    (0x0C4001C803030000, .vmad ⟨.reg 1, .reg 200, .reg 3, 0, .s32, 0, none, 0⟩),
    (0x0C50010203030000, .vadds ⟨.reg 1, .reg 2, .reg 3, 0, .s32, 0, none, 0⟩),
    (0x0C60030201070000, .vsubs ⟨.reg 3, .reg 2, .reg 1, 0, .n32, 0, none, 0⟩),
    (0x0C70010203030000, .vand ⟨.reg 1, .reg 2, .reg 3, 0, .s32, 0, none, 0⟩),
    (0x0C80040506070000, .vor ⟨.reg 4, .reg 5, .reg 6, 0, .n32, 0, none, 0⟩),
    (0x0C90070809030000, .vxor ⟨.reg 7, .reg 8, .reg 9, 0, .s32, 0, none, 0⟩),
    (0x0CA001021F030400, .vshl ⟨.reg 1, .reg 2, .imm 31, 0, .s32, 0, none, 0⟩),
    (0x0CB0010302070000, .vshr ⟨.reg 1, .reg 3, .reg 2, 0, .n32, 0, none, 0⟩),
    (0x0CC0020103030000, .vsar ⟨.reg 2, .reg 1, .reg 3, 0, .s32, 0, none, 0⟩),
    (0x0CD0050607030000, .vmin ⟨.reg 5, .reg 6, .reg 7, 0, .s32, 0, none, 0⟩),
    (0x0CE0060708070000, .vmax ⟨.reg 6, .reg 7, .reg 8, 0, .n32, 0, none, 0⟩),
    (0x0CF001010A230400, .vcmp ⟨.reg 1, .reg 1, .imm 10, 2, .s32, 0, none, 0⟩),
    (0x0D000304052B0000, .vsel ⟨.reg 3, .reg 4, .reg 5, 2, .f32, 0, none, 0⟩),
    (0x0D10020001030400, .vmov ⟨.reg 2, .reg 0, .imm 1, 0, .s32, 0, none, 0⟩)] :=
  ⟨⟨rfl, rfl⟩, ⟨rfl, rfl⟩, ⟨rfl, rfl⟩, ⟨rfl, rfl⟩, ⟨rfl, rfl⟩, ⟨rfl, rfl⟩, ⟨rfl, rfl⟩, ⟨rfl, rfl⟩, ⟨rfl, rfl⟩, ⟨rfl, rfl⟩, ⟨rfl, rfl⟩, ⟨rfl, rfl⟩, ⟨rfl, rfl⟩, ⟨rfl, rfl⟩, ⟨rfl, rfl⟩, ⟨rfl, rfl⟩, ⟨rfl, rfl⟩, ⟨rfl, rfl⟩, trivial⟩

/-- Words of the vector float instructions, by the layouts of R54, R62 and R63 and the codes of R72 and R66. -/
theorem test_decode_vector_float : words [
    (0x10000102030B0000, .fadd ⟨.reg 1, .reg 2, .reg 3, 0, .f32, 0, none, 0⟩),
    (0x1010040506090200, .fsub ⟨.reg 4, .reg 5, .reg 6, 0, .f16, 2, none, 0⟩),
    (0x10200708090B0300, .fmul ⟨.reg 7, .reg 8, .reg 9, 0, .f32, 3, none, 0⟩),
    (0x10300405060B01A0, .ffma ⟨.reg 4, .reg 5, .reg 6, 0, .f32, 1, some 2, 0⟩),
    (0x10400102030B0000, .fmin ⟨.reg 1, .reg 2, .reg 3, 0, .f32, 0, none, 0⟩),
    (0x1050030201090000, .fmax ⟨.reg 3, .reg 2, .reg 1, 0, .f16, 0, none, 0⟩),
    (0x10600203043B0000, .fcmp ⟨.reg 2, .reg 3, .reg 4, 3, .f32, 0, none, 0⟩),
    (0x11010102000B0000, .frcp ⟨.reg 1, .reg 2, .reg 0, 0, .f32, 0, none, 1⟩),
    (0x1110030400090000, .fsqrt ⟨.reg 3, .reg 4, .reg 0, 0, .f16, 0, none, 0⟩),
    (0x11200506000B0000, .frsq ⟨.reg 5, .reg 6, .reg 0, 0, .f32, 0, none, 0⟩),
    (0x113F0708000B0000, .fexp2 ⟨.reg 7, .reg 8, .reg 0, 0, .f32, 0, none, 15⟩),
    (0x1140090A000B0000, .flog2 ⟨.reg 9, .reg 10, .reg 0, 0, .f32, 0, none, 0⟩),
    (0x1150010300090000, .fsin ⟨.reg 1, .reg 3, .reg 0, 0, .f16, 0, none, 0⟩),
    (0x11600204000B0000, .fcos ⟨.reg 2, .reg 4, .reg 0, 0, .f32, 0, none, 0⟩),
    (0x11700305000B0000, .ftanh ⟨.reg 3, .reg 5, .reg 0, 0, .f32, 0, none, 0⟩)] :=
  ⟨⟨rfl, rfl⟩, ⟨rfl, rfl⟩, ⟨rfl, rfl⟩, ⟨rfl, rfl⟩, ⟨rfl, rfl⟩, ⟨rfl, rfl⟩, ⟨rfl, rfl⟩, ⟨rfl, rfl⟩, ⟨rfl, rfl⟩, ⟨rfl, rfl⟩, ⟨rfl, rfl⟩, ⟨rfl, rfl⟩, ⟨rfl, rfl⟩, ⟨rfl, rfl⟩, ⟨rfl, rfl⟩, trivial⟩

/-- Words of the conversion instructions, by the layouts of R54, R62 and R63 and the codes of R72 and R66. -/
theorem test_decode_conversion : words [
    (0x1400010200B30100, .cvt ⟨.reg 1, .reg 2, .reg 0, 11, .s32, 1, none, 0⟩),
    (0x14100304003C0000, .cvts ⟨.reg 3, .reg 4, .reg 0, 3, .d8, 0, none, 0⟩),
    (0x14200506072B0000, .d8pack ⟨.reg 5, .reg 6, .reg 7, 2, .f32, 0, none, 0⟩),
    (0x143008090A3A0000, .d8unp ⟨.reg 8, .reg 9, .reg 10, 3, .bf16, 0, none, 0⟩),
    (0x14401401000B0000, .s10mk ⟨.reg 20, .reg 1, .reg 0, 0, .f32, 0, none, 0⟩),
    (0x14500A01140B0000, .s10ap ⟨.reg 10, .reg 1, .reg 20, 0, .f32, 0, none, 0⟩)] :=
  ⟨⟨rfl, rfl⟩, ⟨rfl, rfl⟩, ⟨rfl, rfl⟩, ⟨rfl, rfl⟩, ⟨rfl, rfl⟩, ⟨rfl, rfl⟩, trivial⟩

/-- Words of the cross-lane and mask instructions, by the layouts of R54, R62 and R63 and the codes of R72 and R66. -/
theorem test_decode_cross_lane_and_mask : words [
    (0x18000102FF530400, .xrot ⟨.reg 1, .reg 2, .imm 255, 5, .s32, 0, none, 0⟩),
    (0x18100304050B0000, .xbfly ⟨.reg 3, .reg 4, .reg 5, 0, .f32, 0, none, 0⟩),
    (0x1823060708070000, .xshfl ⟨.reg 6, .reg 7, .reg 8, 0, .n32, 0, none, 3⟩),
    (0x1830090A0B090000, .xbcst ⟨.reg 9, .reg 10, .reg 11, 0, .f16, 0, none, 0⟩),
    (0x18400908000B0000, .xred ⟨.reg 9, .reg 8, .reg 0, 0, .f32, 0, none, 0⟩),
    (0x1850000200070000, .xscan ⟨.reg 0, .reg 2, .reg 0, 0, .n32, 0, none, 0⟩),
    (0x1860060164030400, .xfind ⟨.reg 6, .reg 1, .imm 100, 0, .s32, 0, none, 0⟩),
    (0x1A00010203000000, .kand ⟨.reg 1, .reg 2, .reg 3, 0, .untyped, 0, none, 0⟩),
    (0x1A10040506000000, .kor ⟨.reg 4, .reg 5, .reg 6, 0, .untyped, 0, none, 0⟩),
    (0x1A20070001000000, .kxor ⟨.reg 7, .reg 0, .reg 1, 0, .untyped, 0, none, 0⟩),
    (0x1A30020701000000, .kandn ⟨.reg 2, .reg 7, .reg 1, 0, .untyped, 0, none, 0⟩),
    (0x1A40050200000000, .kpop ⟨.reg 5, .reg 2, .reg 0, 0, .untyped, 0, none, 0⟩),
    (0x1A50050100000000, .kfirst ⟨.reg 5, .reg 1, .reg 0, 0, .untyped, 0, none, 0⟩),
    (0x1A60070000000000, .emget ⟨.reg 7, .reg 0, .reg 0, 0, .untyped, 0, none, 0⟩),
    (0x1A70000200000000, .emset ⟨.reg 0, .reg 2, .reg 0, 0, .untyped, 0, none, 0⟩),
    (0x1A80000100000000, .emand ⟨.reg 0, .reg 1, .reg 0, 0, .untyped, 0, none, 0⟩)] :=
  ⟨⟨rfl, rfl⟩, ⟨rfl, rfl⟩, ⟨rfl, rfl⟩, ⟨rfl, rfl⟩, ⟨rfl, rfl⟩, ⟨rfl, rfl⟩, ⟨rfl, rfl⟩, ⟨rfl, rfl⟩, ⟨rfl, rfl⟩, ⟨rfl, rfl⟩, ⟨rfl, rfl⟩, ⟨rfl, rfl⟩, ⟨rfl, rfl⟩, ⟨rfl, rfl⟩, ⟨rfl, rfl⟩, ⟨rfl, rfl⟩, trivial⟩

/-- Words of the load and store instructions, by the layouts of R54, R62 and R63 and the codes of R72 and R66. -/
theorem test_decode_load_and_store : words [
    (0x1C03040201870000, .ld ⟨.reg 4, .reg 2, .reg 1, 8, .n32, 0, none, 3⟩),
    (0x1C100903FE060490, .st ⟨.reg 9, .reg 3, .imm 254, 0, .n16, 0, some 1, 0⟩),
    (0x1C21030200080400, .lds ⟨.reg 3, .reg 2, .imm 0, 0, .n64, 0, none, 1⟩),
    (0x9C22050600001000, .ldsL ⟨5, 6, 0x1000, 2⟩),
    (0x1C300C0800080700, .sts ⟨.reg 12, .reg 8, .imm 0, 0, .n64, 3, none, 0⟩),
    (0x9C300708FFFFFFF8, .stsL ⟨7, 8, 0xFFFFFFF8, 0⟩),
    (0x1C40021400870000, .ldl ⟨.reg 2, .reg 20, .reg 0, 8, .n32, 0, none, 0⟩),
    (0x1C50031501420000, .stl ⟨.reg 3, .reg 21, .reg 1, 4, .s16, 0, none, 0⟩),
    (0x1C80000405100000, .pf ⟨.reg 0, .reg 4, .reg 5, 1, .untyped, 0, none, 0⟩),
    (0x1C90000607000000, .disc ⟨.reg 0, .reg 6, .reg 7, 0, .untyped, 0, none, 0⟩),
    (0x1CA0000809100000, .flush ⟨.reg 0, .reg 8, .reg 9, 1, .untyped, 0, none, 0⟩),
    (0x1CB0000A0B000000, .inv ⟨.reg 0, .reg 10, .reg 11, 0, .untyped, 0, none, 0⟩)] :=
  ⟨⟨rfl, rfl⟩, ⟨rfl, rfl⟩, ⟨rfl, rfl⟩, ⟨rfl, rfl⟩, ⟨rfl, rfl⟩, ⟨rfl, rfl⟩, ⟨rfl, rfl⟩, ⟨rfl, rfl⟩, ⟨rfl, rfl⟩, ⟨rfl, rfl⟩, ⟨rfl, rfl⟩, ⟨rfl, rfl⟩, trivial⟩

/-- Words of the atomic, fence and wait instructions, by the layouts of R54, R62 and R63 and the codes of R72 and R66. -/
theorem test_decode_atomic_fence_and_wait : words [
    (0x2001060201870000, .atom ⟨.reg 6, .reg 2, .reg 1, 8, .n32, 0, none, 1⟩),
    (0x2010070302330000, .red ⟨.reg 7, .reg 3, .reg 2, 3, .s32, 0, none, 0⟩),
    (0x20200A0400780400, .satom ⟨.reg 10, .reg 4, .imm 0, 7, .n64, 0, none, 0⟩),
    (0x2080000000140000, .fence ⟨.reg 0, .reg 0, .reg 0, 1, .s64, 0, none, 0⟩),
    (0x2090090405280100, .waita ⟨.reg 9, .reg 4, .reg 5, 2, .n64, 1, none, 0⟩),
    (0x20A0080401470700, .trywait ⟨.reg 8, .reg 4, .imm 1, 4, .n32, 3, none, 0⟩)] :=
  ⟨⟨rfl, rfl⟩, ⟨rfl, rfl⟩, ⟨rfl, rfl⟩, ⟨rfl, rfl⟩, ⟨rfl, rfl⟩, ⟨rfl, rfl⟩, trivial⟩

/-- Words of the barriers, queues and work instructions, by the layouts of R54, R62 and R63 and the codes of R72 and R66. -/
theorem test_decode_barriers_queues_and_work : words [
    (0x2400010200000800, .barinit ⟨.reg 1, .imm 2, .reg 0, 0, .untyped, 0, none, 0⟩),
    (0x2410050100000000, .bararr ⟨.reg 5, .reg 1, .reg 0, 0, .untyped, 0, none, 0⟩),
    (0x2420060240100400, .bartx ⟨.reg 6, .reg 2, .imm 64, 1, .untyped, 0, none, 0⟩),
    (0x24300B020A000000, .barwait ⟨.reg 11, .reg 2, .reg 10, 0, .untyped, 0, none, 0⟩),
    (0x2440000100000000, .barsync ⟨.reg 0, .reg 1, .reg 0, 0, .untyped, 0, none, 0⟩),
    (0x2450070304400000, .bartrywait ⟨.reg 7, .reg 3, .reg 4, 4, .untyped, 0, none, 0⟩),
    (0x2480020410000400, .cinit ⟨.reg 2, .reg 4, .imm 16, 0, .untyped, 0, none, 0⟩),
    (0x2490020500000000, .pushc ⟨.reg 2, .reg 5, .reg 0, 0, .untyped, 0, none, 0⟩),
    (0x24A0060200000000, .popc ⟨.reg 6, .reg 2, .reg 0, 0, .untyped, 0, none, 0⟩),
    (0x24B0060200000300, .trypopc ⟨.reg 6, .reg 2, .reg 0, 0, .untyped, 3, none, 0⟩),
    (0x2500070809000000, .fetchw ⟨.reg 7, .reg 8, .reg 9, 0, .untyped, 0, none, 0⟩),
    (0x2510070800000000, .spawn ⟨.reg 7, .reg 8, .reg 0, 0, .untyped, 0, none, 0⟩),
    (0x2520070809000000, .join ⟨.reg 7, .reg 8, .reg 9, 0, .untyped, 0, none, 0⟩)] :=
  ⟨⟨rfl, rfl⟩, ⟨rfl, rfl⟩, ⟨rfl, rfl⟩, ⟨rfl, rfl⟩, ⟨rfl, rfl⟩, ⟨rfl, rfl⟩, ⟨rfl, rfl⟩, ⟨rfl, rfl⟩, ⟨rfl, rfl⟩, ⟨rfl, rfl⟩, ⟨rfl, rfl⟩, ⟨rfl, rfl⟩, ⟨rfl, rfl⟩, trivial⟩

/-- Words of the queue binding instructions, by the layouts of R54, R62 and R63 and the codes of R72 and R66. -/
theorem test_decode_queue_binding : words [
    (0x2800020405170000, .qbind ⟨.reg 2, .reg 4, .reg 5, 1, .n32, 0, none, 0⟩),
    (0x2810020000000000, .qunbind ⟨.reg 2, .reg 0, .reg 0, 0, .untyped, 0, none, 0⟩),
    (0x2820070200000000, .qinfo ⟨.reg 7, .reg 2, .reg 0, 0, .untyped, 0, none, 0⟩)] :=
  ⟨⟨rfl, rfl⟩, ⟨rfl, rfl⟩, ⟨rfl, rfl⟩, trivial⟩

/-- Words of the matrix and epilogue instructions, by the layouts of R54, R62 and R63 and the codes of R72 and R66. -/
theorem test_decode_matrix_and_epilogue : words [
    (0x2C00030A0E008000, .mma ⟨.queue 3, .reg 10, .reg 14, 0, .untyped, 0, none, 0⟩),
    (0x2C10030A0E008000, .mmaSp ⟨.queue 3, .reg 10, .reg 14, 0, .untyped, 0, none, 0⟩),
    (0x2C20040C0E008000, .mmaTri ⟨.queue 4, .reg 12, .reg 14, 0, .untyped, 0, none, 0⟩),
    (0x2C40030605008000, .scld ⟨.queue 3, .reg 6, .reg 5, 0, .untyped, 0, none, 0⟩),
    (0x2C50030000008000, .accz ⟨.queue 3, .reg 0, .reg 0, 0, .untyped, 0, none, 0⟩),
    (0x2C60030009C08000, .accadv ⟨.queue 3, .reg 0, .reg 9, 12, .untyped, 0, none, 0⟩),
    (0x2C80031807008000, .epcfg ⟨.queue 3, .reg 24, .reg 7, 0, .untyped, 0, none, 0⟩),
    (0x2CC0080000000000, .mstat ⟨.reg 8, .reg 0, .reg 0, 0, .untyped, 0, none, 0⟩)] :=
  ⟨⟨rfl, rfl⟩, ⟨rfl, rfl⟩, ⟨rfl, rfl⟩, ⟨rfl, rfl⟩, ⟨rfl, rfl⟩, ⟨rfl, rfl⟩, ⟨rfl, rfl⟩, ⟨rfl, rfl⟩, trivial⟩

/-- Words of the copy and network instructions, by the layouts of R54, R62 and R63 and the codes of R72 and R66. -/
theorem test_decode_copy_and_network : words [
    (0x3000051008D08000, .cpy ⟨.queue 5, .reg 16, .reg 8, 13, .untyped, 0, none, 0⟩),
    (0x3010051007478000, .cpyf ⟨.queue 5, .reg 16, .reg 7, 4, .n32, 0, none, 0⟩),
    (0x3020051807878000, .cpyg ⟨.queue 5, .reg 24, .reg 7, 8, .n32, 0, none, 0⟩),
    (0x3100071409008000, .npost ⟨.queue 7, .reg 20, .reg 9, 0, .untyped, 0, none, 0⟩),
    (0x3110071409008000, .nunpost ⟨.queue 7, .reg 20, .reg 9, 0, .untyped, 0, none, 0⟩),
    (0x3120071409808000, .nsend ⟨.queue 7, .reg 20, .reg 9, 8, .untyped, 0, none, 0⟩),
    (0x3130071809008000, .nsendt ⟨.queue 7, .reg 24, .reg 9, 0, .untyped, 0, none, 0⟩),
    (0x3140050607100000, .ncnt ⟨.reg 5, .reg 6, .reg 7, 1, .untyped, 0, none, 0⟩),
    (0x3150000607000200, .waitc ⟨.reg 0, .reg 6, .reg 7, 0, .untyped, 2, none, 0⟩)] :=
  ⟨⟨rfl, rfl⟩, ⟨rfl, rfl⟩, ⟨rfl, rfl⟩, ⟨rfl, rfl⟩, ⟨rfl, rfl⟩, ⟨rfl, rfl⟩, ⟨rfl, rfl⟩, ⟨rfl, rfl⟩, ⟨rfl, rfl⟩, trivial⟩

/-- Words of the loam instructions, by the layouts of R54, R62 and R63 and the codes of R72 and R66. -/
theorem test_decode_loam : words [
    (0x3400050400000000, .lmreq ⟨.reg 5, .reg 4, .reg 0, 0, .untyped, 0, none, 0⟩),
    (0x3410060500000000, .lmrel ⟨.reg 6, .reg 5, .reg 0, 0, .untyped, 0, none, 0⟩),
    (0x3420060A0C008000, .lmin ⟨.queue 6, .reg 10, .reg 12, 0, .untyped, 0, none, 0⟩),
    (0x3430060A0D808000, .lmout ⟨.queue 6, .reg 10, .reg 13, 8, .untyped, 0, none, 0⟩),
    (0x3440060C05408400, .ladd ⟨.queue 6, .reg 12, .imm 5, 4, .untyped, 0, none, 0⟩),
    (0x3450060C00008000, .lsub ⟨.queue 6, .reg 12, .reg 0, 0, .untyped, 0, none, 0⟩),
    (0x3460060E00008000, .lmul ⟨.queue 6, .reg 14, .reg 0, 0, .untyped, 0, none, 0⟩),
    (0x3470060E00208000, .llog ⟨.queue 6, .reg 14, .reg 0, 2, .untyped, 0, none, 0⟩),
    (0x3480061009708000, .lcmp ⟨.queue 6, .reg 16, .reg 9, 7, .untyped, 0, none, 0⟩),
    (0x3490061200808000, .lsel ⟨.queue 6, .reg 18, .reg 0, 8, .untyped, 0, none, 0⟩),
    (0x34A0061400108000, .lmm ⟨.queue 6, .reg 20, .reg 0, 1, .untyped, 0, none, 0⟩),
    (0x34B0061603108400, .lshf ⟨.queue 6, .reg 22, .imm 3, 1, .untyped, 0, none, 0⟩),
    (0x34C0061816008000, .lred ⟨.queue 6, .reg 24, .reg 22, 0, .untyped, 0, none, 0⟩),
    (0x34D0061A09008000, .lmatch ⟨.queue 6, .reg 26, .reg 9, 0, .untyped, 0, none, 0⟩),
    (0x34E0061C00008000, .lcnt ⟨.queue 6, .reg 28, .reg 0, 0, .untyped, 0, none, 0⟩),
    (0x34F0060401008400, .ldone ⟨.queue 6, .reg 4, .imm 1, 0, .untyped, 0, none, 0⟩)] :=
  ⟨⟨rfl, rfl⟩, ⟨rfl, rfl⟩, ⟨rfl, rfl⟩, ⟨rfl, rfl⟩, ⟨rfl, rfl⟩, ⟨rfl, rfl⟩, ⟨rfl, rfl⟩, ⟨rfl, rfl⟩, ⟨rfl, rfl⟩, ⟨rfl, rfl⟩, ⟨rfl, rfl⟩, ⟨rfl, rfl⟩, ⟨rfl, rfl⟩, ⟨rfl, rfl⟩, ⟨rfl, rfl⟩, ⟨rfl, rfl⟩, trivial⟩

/-- Words of the operator instructions, by the layouts of R54, R62 and R63 and the codes of R72 and R66. -/
theorem test_decode_operator : words [
    (0x3800050406B90000, .opinst ⟨.reg 5, .reg 4, .reg 6, 11, .f16, 0, none, 0⟩),
    (0x3810050400000000, .opseal ⟨.reg 5, .reg 4, .reg 0, 0, .untyped, 0, none, 0⟩),
    (0x3820050400000000, .opuninst ⟨.reg 5, .reg 4, .reg 0, 0, .untyped, 0, none, 0⟩),
    (0x3830070408000000, .opstat ⟨.reg 7, .reg 4, .reg 8, 0, .untyped, 0, none, 0⟩),
    (0x384009040A000000, .opq ⟨.reg 9, .reg 4, .reg 10, 0, .untyped, 0, none, 0⟩)] :=
  ⟨⟨rfl, rfl⟩, ⟨rfl, rfl⟩, ⟨rfl, rfl⟩, ⟨rfl, rfl⟩, ⟨rfl, rfl⟩, trivial⟩

/-- Words of the dual words: slot 0 from NOP to FMAX instructions, by the layouts of R54, R62 and R63 and the codes of R72 and R66. -/
theorem test_decode_dual_words_lane : words [
    (0x40000000030AF954, .nopSlot (.op .vmul ⟨10, .imm 249, (some 2), 0⟩)),
    (0x40847CAA0A0F0A01, .vaddSlot ⟨8, .imm 249, (some 2), 0⟩ (.op .vxor ⟨15, .reg 10, none, 1⟩)),
    (0x4106840092121CA6, .vsubSlot ⟨13, .reg 8, none, 1⟩ (.op .fmul ⟨18, .scalar 28, (some 4), 2⟩)),
    (0x41880E522405FB41, .vmulSlot ⟨16, .scalar 28, (some 4), 0⟩ (.op .sxor ⟨5, .imm 251, none, 1⟩)),
    (0x420AFE2081021234, .vminSlot ⟨21, .imm 252, none, 1⟩ (.op .vadd ⟨2, .reg 18, (some 6), 0⟩)),
    (0x4280081A08073181, .vmaxSlot ⟨0, .reg 16, (some 6), 0⟩ (.op .vand ⟨7, .scalar 49, none, 1⟩)),
    (0x430298C0900AFF46, .vaddsSlot ⟨5, .scalar 49, none, 1⟩ (.op .fadd ⟨10, .imm 255, (some 0), 2⟩)),
    (0x43847FA22209F741, .vsubsSlot ⟨8, .imm 255, (some 0), 0⟩ (.op .sand ⟨9, .imm 247, none, 1⟩)),
    (0x44068C00A90A3200, .vandSlot ⟨13, .reg 24, none, 1⟩ (.op .smax ⟨10, .reg 50, none, 0⟩)),
    (0x4488054A06170241, .vorSlot ⟨16, .scalar 10, (some 2), 0⟩ (.op .vadds ⟨23, .imm 2, none, 1⟩)),
    (0x450A81208D020624, .vxorSlot ⟨21, .imm 2, none, 1⟩ (.op .vsar ⟨2, .reg 6, (some 4), 0⟩)),
    (0x45800212200DF341, .vshlSlot ⟨0, .reg 4, (some 4), 0⟩ (.op .sadd ⟨13, .imm 243, none, 1⟩)),
    (0x46028FC0A70E0A00, .vshrSlot ⟨5, .scalar 31, none, 1⟩ (.op .ssar ⟨14, .reg 10, none, 0⟩)),
    (0x468402BA040F0E01, .vsarSlot ⟨8, .imm 5, (some 6), 0⟩ (.op .vmin ⟨15, .reg 14, none, 1⟩)),
    (0x470686008B123484, .vmovSlot ⟨13, .reg 12, none, 1⟩ (.op .vshl ⟨18, .scalar 52, (some 0), 0⟩)),
    (0x48081A4313170843, .faddSlot ⟨16, .scalar 52, (some 0), 2⟩ (.op .fmin ⟨23, .imm 8, none, 3⟩)),
    (0x488A8421A5121E00, .fsubSlot ⟨21, .imm 8, none, 3⟩ (.op .sshl ⟨18, .reg 30, none, 0⟩)),
    (0x49000A0B02070D81, .fmulSlot ⟨0, .reg 20, (some 2), 2⟩ (.op .vsub ⟨7, .scalar 13, none, 1⟩)),
    (0x498286C1890A0B64, .fminSlot ⟨5, .scalar 13, none, 3⟩ (.op .vor ⟨10, .imm 11, (some 4), 0⟩)),
    (0x4A0405B3110F0203, .fmaxSlot ⟨8, .imm 11, (some 4), 2⟩ (.op .fsub ⟨15, .reg 2, none, 3⟩))] :=
  ⟨⟨rfl, rfl⟩, ⟨rfl, rfl⟩, ⟨rfl, rfl⟩, ⟨rfl, rfl⟩, ⟨rfl, rfl⟩, ⟨rfl, rfl⟩, ⟨rfl, rfl⟩, ⟨rfl, rfl⟩, ⟨rfl, rfl⟩, ⟨rfl, rfl⟩, ⟨rfl, rfl⟩, ⟨rfl, rfl⟩, ⟨rfl, rfl⟩, ⟨rfl, rfl⟩, ⟨rfl, rfl⟩, ⟨rfl, rfl⟩, ⟨rfl, rfl⟩, ⟨rfl, rfl⟩, ⟨rfl, rfl⟩, ⟨rfl, rfl⟩, trivial⟩

/-- Words of the dual words: slot 0 from SADD to SMAX instructions, by the layouts of R54, R62 and R63 and the codes of R72 and R66. -/
theorem test_decode_dual_words_scalar : words [
    (0x500AF5A0A3163200, .saddSlot ⟨21, .imm 235, none, 1⟩ (.op .sor ⟨22, .reg 50, none, 0⟩)),
    (0x508B190000000000, .ssubSlot ⟨22, .reg 50, none, 0⟩ .nop),
    (0x510BF4A087020A04, .sandSlot ⟨23, .imm 233, none, 1⟩ (.op .vsubs ⟨2, .reg 10, (some 0), 0⟩)),
    (0x518C00000E073781, .sorSlot ⟨24, .reg 0, none, 0⟩ (.op .vmov ⟨7, .scalar 55, none, 1⟩)),
    (0x520CF3A0A11A0A00, .sxorSlot ⟨25, .imm 231, none, 1⟩ (.op .ssub ⟨26, .reg 10, none, 0⟩)),
    (0x528D0500281BE541, .sshlSlot ⟨26, .reg 10, none, 0⟩ (.op .smin ⟨27, .imm 229, none, 1⟩)),
    (0x530DF2A0851210A4, .sshrSlot ⟨27, .imm 229, none, 1⟩ (.op .vmax ⟨18, .scalar 16, (some 4), 0⟩)),
    (0x538E0A000C171441, .ssarSlot ⟨28, .reg 20, none, 0⟩ (.op .vshr ⟨23, .imm 20, none, 1⟩)),
    (0x540EF1A094021A36, .sminSlot ⟨29, .imm 227, none, 1⟩ (.op .fmax ⟨2, .reg 26, (some 6), 2⟩)),
    (0x548F0F00261FE141, .smaxSlot ⟨30, .reg 30, none, 0⟩ (.op .sshr ⟨31, .imm 225, none, 1⟩))] :=
  ⟨⟨rfl, rfl⟩, ⟨rfl, rfl⟩, ⟨rfl, rfl⟩, ⟨rfl, rfl⟩, ⟨rfl, rfl⟩, ⟨rfl, rfl⟩, ⟨rfl, rfl⟩, ⟨rfl, rfl⟩, ⟨rfl, rfl⟩, ⟨rfl, rfl⟩, trivial⟩
/-! ### Small states -/

/-- One team of 32 lanes at 0x1000, with a NOP there, its page mapped to physical 0x6000, in a privileged context (log 20). -/
def st : State := State.reset.place 0x0880000000000000

/-- The issuing team's scalar registers set. -/
def withS (s : State) (l : List (Nat × DWord)) : State := l.foldl (fun s p => s.setS p.1 p.2) s

/-- The issuing team at an address. -/
def atPc (s : State) (pc : DWord) : State := s.setRegs { s.regs with pc := pc }

/-- The gang with `n` bytes of scratchpad. -/
def scr (s : State) (n : Nat) : State := s.mapGang 0 (fun g => { g with scratch := n })

/-- The outcome is a next state of which `f` holds. -/
def nextWith (o : Out) (f : State → Bool) : Bool :=
  match o with
  | .next t => f t
  | _ => false

/-- The value of an access that is expected to stand. -/
def okOr {ε α : Type} (d : α) (r : Except ε α) : α :=
  match r with
  | .ok x => x
  | .error _ => d

/-- An access stands. -/
def stands {ε α : Type} (r : Except ε α) : Bool :=
  match r with
  | .ok _ => true
  | .error _ => false

theorem ok_eq {ε α : Type} (d : α) (r : Except ε α) (h : stands r = true) : r = .ok (okOr d r) := by
  cases r with
  | ok x => rfl
  | error e => cases h

theorem ok_pair {ε α β : Type} (d : α × β) (r : Except ε (α × β)) (h : stands r = true) : r = .ok ((okOr d r).1, (okOr d r).2) := ok_eq d r h

theorem ok_triple {ε α β γ : Type} (d : α × β × γ) (r : Except ε (α × β × γ)) (h : stands r = true) :
    r = .ok ((okOr d r).1, (okOr d r).2.1, (okOr d r).2.2) := ok_eq d r h

/-- What an access stops with, and the state that the stop leaves. -/
def stopsWith {α : Type} (r : Res α) (e : Stop) : Bool :=
  match r with
  | .error (x, _) => x = e
  | .ok _ => false

/-- The state that a stop leaves. -/
def stopState {α : Type} (r : Res α) : State :=
  match r with
  | .error (_, s) => s
  | .ok _ => st

theorem stop_eq {α : Type} (r : Res α) (e : Stop) (h : stopsWith r e = true) : r = .error (e, stopState r) := by
  cases r with
  | ok x => cases h
  | error x => simpa [stopsWith, stopState, Prod.ext_iff] using h

theorem next_stands (s : State) (h : ((s.regs.pc + 8).toNat != windowBase) = true) : nextStands s := by
  simpa [nextStands] using h

/-! ### Witnesses: decoding, the step, scalar instructions and the system -/

set_option maxRecDepth 100000
set_option exponentiation.threshold 2000

/-- NOP. -/
def nopInstr : Instr := .nop (ops (.reg 0) (.reg 0) (.reg 0))

/-- SADD s5, s6, s8 at the program counter, and s6 poisoned. -/
def spoiled : State := (State.reset.place 0x0000050608040000).mapTeam 0 (fun t => { t with bad := [.scalar 6] })

/-- What the statement of a step asks of the instruction `i` that is about to issue for team 0 of `p`. -/
def about (p : State) (i : Instr) (t : State) : Prop := free (issuing p 0) ∧ fetchesInstr (issuing p 0) i t

/-- A write of team 0 is on its way to an apply window. -/
def onItsWay (s : State) : State := s.mapSlice 0 (fun c => { c with writes := [⟨.team 0, 0, 0, 0, 0, [], []⟩] })

/-- A release fence at the program counter, with a write of the team on its way to an apply window. -/
def fencing : State := onItsWay (State.reset.place 0x2080000000140000)

/-- OPSEAL at the program counter of the gang of a replay. -/
def replaying : State := (State.reset.place 0x3810050400000000).mapGang 0 (fun g => { g with replay := true })

/-- An issue, a stall, a poisoned register and an instruction of a replay; the turn of an event that is no gang's, and of one that is; a team that is not
there. -/
theorem witness_StepRunsTheDecodedInstruction :
    (st.agenda = [] ∧ (st.pass 1 1).team.status ≠ .absent ∧ (st.pass 1 1).cur = 0 ∧ ∃ t, about (st.pass 1 1) nopInstr t ∧ (due t).gang.replay = false ∧
      (due t).readsBad t.cur nopInstr = false ∧ ∃ x, exec nopInstr (issueState t nopInstr) = .next x ∧ (x.teamAt t.cur).hasStalled = false) ∧
    (∃ t, about (fencing.pass 1 1) (.fence { ops (.reg 0) (.reg 0) (.reg 0) .s64 with var := 1 }) t ∧ ∃ x,
      exec (.fence { ops (.reg 0) (.reg 0) (.reg 0) .s64 with var := 1 }) (issueState t (.fence { ops (.reg 0) (.reg 0) (.reg 0) .s64 with var := 1 })) = .next x ∧
      (x.teamAt t.cur).hasStalled = true) ∧
    (∃ t, about (spoiled.pass 1 1) (.sadd (ops (.reg 5) (.reg 6) (.reg 8) .s64)) t ∧
      (due t).readsBad t.cur (.sadd (ops (.reg 5) (.reg 6) (.reg 8) .s64)) = true) ∧
    (∃ t, about (replaying.pass 1 1) (.opseal (ops (.reg 5) (.reg 4) (.reg 0))) t ∧ (due t).gang.replay = true) ∧
    (let p := st.pass 2 0
     p.gangOf (.islandWake 479) = none ∧ (∃ x, exec (.islandWake 479) p = .next x) ∧ p.gangOf (.userInterruptDelivery 0) = some 0 ∧
       p.ownCause 0 = false ∧ (∃ x, exec (.userInterruptDelivery 0) (p.atBoundaryOf (.userInterruptDelivery 0)) = .next x) ∧
       p.gangs.any (fun q => q.2.rolling) = false ∧ (p.teamAt 16).status = .absent) := by
  refine ⟨⟨rfl, nofun, rfl, _, ⟨⟨rfl, rfl, rfl, rfl, rfl, rfl, rfl⟩, _, _, ⟨_, rfl, rfl⟩, rfl, rfl⟩, rfl, rfl, _, rfl, rfl⟩,
    ⟨_, ⟨⟨rfl, rfl, rfl, rfl, rfl, rfl, rfl⟩, _, _, ⟨_, rfl, rfl⟩, rfl, rfl⟩, _, rfl, rfl⟩,
    ⟨_, ⟨⟨rfl, rfl, rfl, rfl, rfl, rfl, rfl⟩, _, _, ⟨_, rfl, rfl⟩, rfl, rfl⟩, rfl⟩,
    ⟨_, ⟨⟨rfl, rfl, rfl, rfl, rfl, rfl, rfl⟩, _, _, ⟨_, rfl, rfl⟩, rfl, rfl⟩, rfl⟩, rfl, ⟨_, rfl⟩, rfl, ?_, ⟨_, rfl⟩, ?_, rfl⟩ <;> decide +kernel

theorem witness_RefusedWordEndsTheDispatch :
    let s := State.reset.place 1
    s.agenda = [] ∧ (s.pass 1 1).team.status ≠ .absent ∧ free (issuing (s.pass 1 1) (s.pass 1 1).cur) ∧
      ∃ s1, fetches (issuing (s.pass 1 1) (s.pass 1 1).cur) 1 s1 ∧ seated s1 s1.cur ∧ decode (s1.env s1.cur) 1 = .error .illegalInstruction :=
  ⟨rfl, nofun, ⟨rfl, rfl, rfl, rfl, rfl, rfl, rfl⟩, ⟨_, ⟨_, rfl, rfl⟩, ⟨rfl, rfl, by decide +kernel⟩, rfl⟩⟩

theorem witness_DecodeOfEncodeIsTheInstruction :
    ((Instr.sadd (ops (.reg 5) (.reg 6) (.imm 0x80) .s64)).wellFormed Env.widest = true ∧
      encode (.sadd (ops (.reg 5) (.reg 6) (.imm 0x80) .s64)) = some 0x0000050680040400) ∧
    ((Instr.loop ⟨63, 0, 0xFFFFFFFF, 0⟩).wellFormed Env.widest = true ∧ encode (.loop ⟨63, 0, 0xFFFFFFFF, 0⟩) = some 0x84A03F00FFFFFFFF) ∧
    ((Instr.nopSlot .nop).wellFormed Env.widest = true ∧ encode (.nopSlot .nop) = some 0x4000000000000000) :=
  ⟨⟨rfl, rfl⟩, ⟨rfl, rfl⟩, ⟨rfl, rfl⟩⟩

theorem witness_DecodedWordIsTheEncoding :
    decode ⟨false, 1, 32, 0⟩ 0x0880000000000000 = .ok (.nop (ops (.reg 0) (.reg 0) (.reg 0))) ∧
    decode ⟨false, 1, 32, 0⟩ 0x4000000000000000 = .ok (.nopSlot .nop) := ⟨rfl, rfl⟩

/-- Targets at 0 and at the last word below the local window; a branch that falls through; targets below 0, at 2^57, in the window. -/
theorem witness_TransfersGoToTheirTargets :
    (branchTaken st (.br ⟨0, 0, 0xFFFFFE00, 0⟩) = some (True, 0xFFFFFE00) ∧ targetStands (target st 0xFFFFFE00)) ∧
    targetStands (windowBase - 8 : Nat) ∧ ((∃ p, branchTaken st (.bnz ⟨0, 5, 1, 0⟩) = some (p, 1) ∧ ¬p) ∧ nextStands st) ∧
    ¬targetStands (target st 0xFFFFFDFF) ∧ ¬targetStands ((2 : Int) ^ 57) ∧ ¬targetStands (windowBase : Nat) ∧ ¬targetStands 0x1004 ∧
    (targetStands ((withS st [(5, 0x2000)]).regs.source (.reg 5)).toNat ∧ ¬targetStands ((withS st [(5, 0x2004)]).regs.source (.reg 5)).toNat) := by
  refine ⟨⟨rfl, ?_⟩, ?_, ⟨⟨_, rfl, ?_⟩, next_stands _ rfl⟩, ?_, ?_, ?_, ?_, ?_, ?_⟩ <;> first | (unfold targetStands; decide +kernel) | decide +kernel

/-- n not zero with a target, n = 0, and a target that fails. -/
theorem witness_LoopCountsDownAndBranches :
    ((withS st [(4, 0)]).sreg 4 - 1 ≠ 0 ∧ targetStands (target (withS st [(4, 0)]) 0xFFFFFFFF)) ∧
    ((withS st [(4, 1)]).sreg 4 - 1 = 0 ∧ nextStands (withS st [(4, 1)])) ∧
    ((withS st [(4, 2)]).sreg 4 - 1 ≠ 0 ∧ ¬targetStands (target (withS st [(4, 2)]) 0xFFFFFDFF)) := by
  refine ⟨⟨?_, ?_⟩, ⟨?_, next_stands _ rfl⟩, ⟨?_, ?_⟩⟩ <;> first | decide +kernel | (unfold targetStands; decide +kernel)

theorem witness_ScalarInstructionWritesItsResult :
    (∃ x, scalarResult st (.sadd (ops (.reg 0) (.imm 0x80) (.imm 0x7F) .s64)) = some (0, x)) ∧ nextStands st ∧
    ¬nextStands (atPc st 0x1FFFFEFFFFFFFF8) ∧
    (let s := withS st [(5, 0), (6, 0x8000000000000000), (7, 0xFFFFFFFFFFFFFFFF)]
     s.regs.source (.reg 5) = 0 ∧ s.regs.source (.reg 6) = 0x8000000000000000 ∧ s.regs.source (.reg 7) = 0xFFFFFFFFFFFFFFFF ∧
       s.regs.source (.reg 7) ≠ 0) := by
  refine ⟨⟨_, rfl⟩, next_stands _ rfl, ?_, ?_, ?_, ?_, ?_⟩ <;> first | (unfold nextStands; decide +kernel) | decide +kernel

/-- The team at its handler's door: UHANDLER set, H clear. -/
def handled : State := st.setRegs { st.regs with uhandler := 0x2000, uepc := 0x1008 }

theorem witness_HandlersAreEnteredAndLeft :
    (handled.settle 0 = .ok handled ∧ handled.arriveQuiet 0 = .ok handled ∧ handled.regs.uhandler ≠ 0 ∧ handled.team.h = false) ∧
    (st.settle 0 = .ok st ∧ st.arriveQuiet 0 = .ok st ∧ st.regs.uhandler = 0) ∧
    (let s := handled.mapTeam 0 (fun t => { t with h := true })
     s.team.h = true ∧ ∃ s1, s.closeAll s.cur = .ok s1 ∧ targetStands s1.regs.uepc.toNat) := by
  refine ⟨⟨rfl, rfl, ?_, rfl⟩, ⟨rfl, rfl, rfl⟩, rfl, ?_⟩
  · decide +kernel
  · exact ⟨handled.mapTeam 0 (fun t => { t with h := true }), rfl, by unfold targetStands; decide +kernel⟩

theorem witness_EcallHaltAndExitStopTheTeam : st.closeAll st.cur = .ok st ∧ st.tooLate st.team.gang 0 = false := ⟨rfl, rfl⟩

/-- A team that is ready, and one that is part-way in a host atomic. -/
theorem witness_EndOfADispatchEndsItsGangs :
    ((st.gangAt 0).dispatch = (st.gangAt (st.teamAt 0).gang).dispatch ∧ (st.gangAt 0).state = .resident ∧ 0 < (st.gangAt 0).nteams) ∧
    (let w : AtomicWait := ⟨0x201, ops (.reg 8) (.reg 4) (.imm 0) .n64, [], [], [], false, 7, none⟩
     let s := st.mapTeam 0 (fun t => { t with status := .atomicOp w })
     (s.gangAt 0).dispatch = (s.gangAt (s.teamAt 0).gang).dispatch ∧ (s.gangAt 0).state = .resident ∧ (s.teamAt 0).status = .atomicOp w) :=
  ⟨⟨rfl, rfl, by decide +kernel⟩, rfl, rfl, rfl⟩

/-- A core whose counter 0 the gang holds, and counter 1 another. -/
def counting : State :=
  (st.mapCore 0 (fun k => { k with counters := (k.counters.set 0 ⟨some 0, 10, 9⟩).set 1 ⟨some 5, 4, 9⟩ })).mapGang 0
    (fun g => { g with lapsed := g.lapsed.set 4 77 })

theorem witness_SpecialRegistersAndCountersReadAndWrite :
    nextStands st ∧ specialValue st 0x01 = some 32 ∧ (∃ r, specialWritten st.regs 0x15 9 = some r) ∧
    st.team.windows.length < 8 ∧ (counted st.team).windows.any (fun w => w.left = 0) = false ∧
    ((counted { st.team with windows := [⟨0x0FF8, 1, .ready [] 0⟩] }).windows.any (fun w => w.left = 0) = true) ∧
    ((counting.coreAt 0).counters.get .none 0).gang = some counting.team.gang ∧
    (((counting.coreAt 0).counters.get .none 4).gang ≠ some counting.team.gang ∧ (counting.gangAt counting.team.gang).lapsed.find 4 = some 77) ∧
    (((counting.coreAt 0).counters.get .none 1).gang.isSome = true ∧ ((counting.coreAt 0).counters.get .none 1).gang ≠ some counting.team.gang) ∧
    (((counting.coreAt 0).counters.get .none 2).gang = none ∧ (counting.gangAt counting.team.gang).lapsed.find 2 = none) ∧
    (11 < ((withS st [(5, 12)]).regs.source (.reg 5)).toNat ∧ ((withS st [(5, 11)]).regs.source (.reg 5)).toNat ≤ 11) := by
  refine ⟨next_stands _ rfl, ?_, ⟨_, rfl⟩, ?_, ?_, ?_, ?_, ⟨?_, ?_⟩, ⟨?_, ?_⟩, ⟨?_, ?_⟩, ?_, ?_⟩ <;> decide +kernel

/-! ### Witnesses: vector instructions, streams, loads, stores and lines -/

theorem frozen_read (s : State) (h : s.team.frozen = []) : frozenRead s := by
  intro w hw
  rw [h] at hw
  cases hw

theorem quiet_of (s : State) (h : s.team.windows = []) (hf : s.team.frozen = []) (hd : s.team.deferred = []) : quiet s :=
  ⟨h, frozen_read s hf, hd⟩

/-- VADD v1, v2, v3, FRCP v1, v2 and XRED.add with register operands. -/
def lane (ty : ElemType) : Ops := ops (.reg 1) (.reg 2) (.reg 3) ty

theorem lane_noQueue (ty : ElemType) : noQueue (lane ty) := ⟨⟨1, rfl⟩, nofun, nofun⟩

theorem witness_LaneInstructionWritesItsActiveLanes :
    (∃ f, laneResult st (.vadd (lane .s32)) = some (lane .s32, f)) ∧ noQueue (lane .s32) ∧ nextStands st :=
  ⟨⟨_, rfl⟩, lane_noQueue _, next_stands _ rfl⟩

theorem witness_LongLaneInstructionWritesOrOpensAWindow :
    (∃ f, laneLong st (.frcp (lane .f32)) = some (lane .f32, f)) ∧ noQueue (lane .f32) ∧ nextStands st ∧ st.team.windows.length < 8 ∧
    ((lane .f32).la = 0 ∧ (counted st.team).windows.any (fun w => w.left = 0) = false) ∧ { lane .f32 with la := 15 }.la ≠ 0 :=
  ⟨⟨_, rfl⟩, lane_noQueue _, next_stands _ rfl, by decide +kernel, ⟨rfl, rfl⟩, by decide⟩

theorem witness_ComparisonsWriteMasksAndFindWritesALane :
    noQueue (lane .s32) ∧ nextStands st ∧ st.tw ≤ 1024 ∧ { lane .s32 with var := 5 }.var.toNat < 6 :=
  ⟨lane_noQueue _, next_stands _ rfl, by decide +kernel, by decide⟩

theorem witness_ReductionsCombineInAFixedOrder :
    noQueue (lane .n32) ∧ nextStands st ∧ (lane .n32).ty.isInt = true ∧ (lane .n32).var = 0 ∧ st.tw ≤ 1024 :=
  ⟨lane_noQueue _, next_stands _ rfl, rfl, rfl, by decide +kernel⟩

/-- A load stream q2 over the placed page, its last vector to come, and a store stream q3 in scratchpad; q4 is exhausted, q5 unbound. -/
def streaming : State :=
  (scr st 4096).setRegs { st.regs with q := [
    (2, .load ⟨0x1000, .n32, 128, 2, 1, []⟩), (3, .store ⟨0x1FFFFF000000000, .n16, 64, 1, 0, []⟩),
    (4, .load ⟨0x1000, .n32, 128, 1, 1, []⟩), (6, .store ⟨0x1FFFFF000000000, .n16, 64, 1, 1, []⟩)] }

theorem witness_StreamsPopAndPushAtTheirPosition :
    (∃ op, vectorOp (.vadd (ops (.reg 1) (.queue 2) (.reg 3) .n32)) = some (op, ops (.reg 1) (.queue 2) (.reg 3) .n32)) ∧
    (∃ st s1 xs, streaming.regs.q.find 2 = some (.load st) ∧ st.done = false ∧ streaming.team.windows = [] ∧
      (streaming.setBinding 0 2 (.load { st with pos := st.pos + 1, ahead := st.ahead.drop 1 })).streamRead 0 st = .ok (s1, xs) ∧ nextStands s1) ∧
    ((∃ st, streaming.regs.q.find 4 = some (.load st) ∧ st.done = true) ∧ streaming.regs.q.find 5 = none) ∧
    (∃ f, laneResult streaming (.vadd (ops (.queue 3) (.reg 1) (.reg 2) .n32)) = some (ops (.queue 3) (.reg 1) (.reg 2) .n32, f)) ∧
    (∃ st s1 s2 ts, streaming.regs.q.find 3 = some (.store st) ∧ st.done = false ∧
      streaming.targets 0 .write 0x02 (((List.range 32).filter (fun l => streaming.regs.active 32 none l)).map (fun l => (l, st.address l)))
        st.ty.size = .ok (s1, ts) ∧
      s1.writeLanes 0 0 ((ts.zip (List.range 32)).map (fun p => (p.1.1, p.1.2, leBytes st.ty.size 0))) = .ok s2 ∧
      nextStands s2 ∧ s2.cur = streaming.cur) ∧
    (∃ st, streaming.regs.q.find 6 = some (.store st) ∧ st.done = true) ∧ frozenRead streaming := by
  refine ⟨⟨_, rfl⟩, ?_, ⟨⟨_, rfl, rfl⟩, rfl⟩, ⟨_, rfl⟩, ?_, ⟨_, rfl, rfl⟩, frozen_read _ rfl⟩
  · exact ⟨_, _, _, rfl, rfl, rfl, ok_pair (st, []) _ (by decide +kernel), next_stands _ (by decide +kernel)⟩
  · exact ⟨_, _, _, _, rfl, rfl, ok_pair (st, []) _ (by decide +kernel), ok_eq st _ (by decide +kernel), next_stands _ (by decide +kernel), by decide +kernel⟩

/-- A state with an address of scratchpad in s4, one of the placed page in s5, one misaligned in s6, one above 2^57 in s7. -/
def addressed : State := withS (scr st 4096) [(4, 0x1FFFFF000000FF8), (5, 0x1FF8), (6, 0x1FFFFF000000001), (7, 0x200000000000000)]

/-- Of n64, at the address in s`a`. -/
def at64 (a : BitVec 8) : Ops := ops (.reg 8) (.reg a) (.imm 0) .n64

theorem witness_LoadsWriteWhatTheirLanesRead :
    (∃ l s1 ts s2 xs, loadOf addressed (.lds (at64 4)) = some (l, 0) ∧ localStands addressed (.lds (at64 4)) ∧ quiet addressed ∧
      addressed.targets 0 .read 0x01 l.lanes l.ty.size = .ok (s1, ts) ∧ s1.readLanes 0 l.ty.size l.policy ts = .ok (s2, xs) ∧ nextStands s2) ∧
    (∃ l s1 ts s2 xs, loadOf addressed (.ldl (ops (.reg 8) (.imm 8) (.imm 0) .n64)) = some (l, 0) ∧
      localStands addressed (.ldl (ops (.reg 8) (.imm 8) (.imm 0) .n64)) ∧
      addressed.targets 0 .read 0x01 l.lanes l.ty.size = .ok (s1, ts) ∧ s1.readLanes 0 l.ty.size l.policy ts = .ok (s2, xs) ∧ nextStands s2) ∧
    (∃ l s1 ts s2 xs, loadOf addressed (.ldsL ⟨8, 5, 0, 0⟩) = some (l, 0) ∧
      addressed.targets 0 .read 0x01 l.lanes l.ty.size = .ok (s1, ts) ∧ s1.readLanes 0 l.ty.size l.policy ts = .ok (s2, xs) ∧ nextStands s2) ∧
    (∃ l, loadOf addressed (.lds { at64 7 with b := .imm 0xF8, la := 15 }) = some (l, 15) ∧
      ∀ p ∈ (loadOf addressed (.lds { at64 4 with la := 1 })).toList.flatMap (fun x => x.1.lanes),
        p.2.toNat < 2 ^ 57 ∧ p.2.toNat % 8 = 0 ∧ ¬(windowBase + apertureV ≤ p.2.toNat)) := by
  refine ⟨?_, ?_, ?_, ?_⟩
  · exact ⟨_, _, _, _, _, rfl, trivial, quiet_of _ rfl rfl rfl, ok_pair (st, []) _ (by decide +kernel), ok_pair (st, []) _ (by decide +kernel), next_stands _ (by decide +kernel)⟩
  · exact ⟨_, _, _, _, _, rfl, by unfold localStands; decide +kernel, ok_pair (st, []) _ (by decide +kernel), ok_pair (st, []) _ (by decide +kernel), next_stands _ (by decide +kernel)⟩
  · exact ⟨_, _, _, _, _, rfl, ok_pair (st, []) _ (by decide +kernel), ok_pair (st, []) _ (by decide +kernel), next_stands _ (by decide +kernel)⟩
  · exact ⟨_, rfl, by decide +kernel⟩

/-- One lane, at 0x1000: its line is mapped; at 0x3000 no page is mapped. -/
def oneLane (a : DWord) : State := withS ((scr st 4096).setRegs { st.regs with em := 1 }) [(4, a), (5, 0x1FF8)]

/-- The same, with its page write-protected. -/
def readOnly : State := (oneLane 0x1000).mapMem (fun m => { m with dram := m.dram.write 0x5008 (leBytes 8 0x600D) })

/-- A load, store or atomic of a state meets a cause of its page in the check of its lanes. -/
def meetsFault (s : State) (i : Instr) (c : Cause) (va : DWord) : Prop :=
  ∃ a acc lanes n s1, checked s i = some (a, acc, lanes, n) ∧ localStands s i ∧ quiet s ∧
    s.targets s.cur a acc lanes n = .error (.trap c va acc true, s1) ∧ nextStands s1

theorem witness_StoresWriteTheirLanes :
    (meetsFault (oneLane 0x3000) (.lds (at64 4)) .pageNotPresent 0x3000 ∧ meetsFault (oneLane 0x3000) (.sts (at64 4)) .pageNotPresent 0x3000 ∧
      meetsFault (oneLane 0x3000) (.satom { at64 4 with var := 1 }) .pageNotPresent 0x3000 ∧
      meetsFault readOnly (.sts (at64 4)) .writeProtection 0x1000 ∧
      meetsFault readOnly (.satom { at64 4 with var := 1 }) .writeProtection 0x1000) ∧
    ((∃ s1, (oneLane 0x3000).leafFor ⟨some ((oneLane 0x3000).coreOf 0), some (oneLane 0x3000).team.gang⟩ ((oneLane 0x3000).ctxOf 0) 0x3000 true =
        .ok (s1, none)) ∧
      (∃ s1 l ts, readOnly.leafFor ⟨some (readOnly.coreOf 0), some readOnly.team.gang⟩ (readOnly.ctxOf 0) 0x1000 true = .ok (s1, some (l, ts)) ∧
        l.writable = false)) ∧
    (∃ lanes n data noL1 s1 ts s2, storeOf addressed (.sts (at64 5)) = some (lanes, n, data, noL1) ∧ quiet addressed ∧
      addressed.targets 0 .write 0x02 lanes n = .ok (s1, ts) ∧
      s1.writeLanes s1.cur noL1 (ts.map (fun p => (p.1, p.2, data p.1))) = .ok s2 ∧ nextStands s2) ∧
    (∃ lanes n data noL1 s1 ts s2, storeOf addressed (.stl (ops (.reg 8) (.imm 8) (.imm 0) .n32)) = some (lanes, n, data, noL1) ∧
      localStands addressed (.stl (ops (.reg 8) (.imm 8) (.imm 0) .n32)) ∧ addressed.targets 0 .write 0x02 lanes n = .ok (s1, ts) ∧
      s1.writeLanes s1.cur noL1 (ts.map (fun p => (p.1, p.2, data p.1))) = .ok s2 ∧ nextStands s2) ∧
    (∃ p data noL1, storeOf addressed (.sts (at64 7)) = some ([] ++ p :: [], 8, data, noL1) ∧ 2 ^ 57 ≤ p.2.toNat) ∧
    (∃ p data noL1, storeOf addressed (.sts (at64 6)) = some ([] ++ p :: [], 8, data, noL1) ∧ p.2.toNat < 2 ^ 57 ∧ p.2.toNat % 8 ≠ 0) := by
  refine ⟨⟨?_, ?_, ?_, ?_, ?_⟩, ⟨⟨_, rfl⟩, ⟨_, _, _, rfl, rfl⟩⟩, ?_, ?_, ⟨_, _, _, rfl, by decide +kernel⟩, ⟨_, _, _, rfl, by decide +kernel, by decide +kernel⟩⟩
  iterate 5
    exact ⟨_, _, _, _, _, rfl, trivial, quiet_of _ rfl rfl rfl, stop_eq _ _ (by decide +kernel), next_stands _ (by decide +kernel)⟩
  · exact ⟨_, _, _, _, _, _, _, rfl, quiet_of _ rfl rfl rfl, ok_pair (st, []) _ (by decide +kernel), ok_eq st _ (by decide +kernel), next_stands _ (by decide +kernel)⟩
  · exact ⟨_, _, _, _, _, _, _, rfl, by unfold localStands; decide +kernel, ok_pair (st, []) _ (by decide +kernel), ok_eq st _ (by decide +kernel), next_stands _ (by decide +kernel)⟩

/-- The last doubleword of a scratchpad of 4096 bytes, and its first. -/
theorem witness_ScratchpadScalarAccessIsExact :
    quiet addressed ∧ nextStands addressed ∧
    (let ea := addressed.regs.source (.reg 4)
     windowBase ≤ ea.toNat ∧ ea.toNat < 2 ^ 57 ∧ ea.toNat % 8 = 0 ∧ ea.toNat - windowBase + 8 ≤ addressed.gang.scratch) ∧
    (let ea := addressed.regs.source (.reg 4) + 0xFFFFFFFFFFFFF008
     windowBase ≤ ea.toNat ∧ ea.toNat - windowBase = 0) ∧ (at64 4).la = 0 ∧ addressed.gang.poisoned 4088 8 = false := by
  refine ⟨quiet_of _ rfl rfl rfl, next_stands _ rfl, ⟨?_, ?_, ?_, ?_⟩, ⟨?_, ?_⟩, rfl, ?_⟩ <;> decide +kernel

/-- The state after a store of s8 to 0x1000, whose line the L1 did not hold before and then holds dirty. -/
def dirtied : State := match exec (.sts (at64 4)) (oneLane 0x1000) with | .next t => t | _ => st

theorem witness_LineOperationsActOnEachLine :
    nextStands (oneLane 0x1000) ∧ lineAddresses (laneAddresses (oneLane 0x1000) (ops (.reg 0) (.reg 4) (.imm 0)) 0x1000) = [0x1000] ∧
    quiet (oneLane 0x1000) ∧ stands (lineByLine (oneLane 0x1000) [0x1000] .write (fun s _ _ pa => s.discard pa)) = true ∧
    stands (lineByLine (oneLane 0x1000) [0x1000] .read (fun s va leaf pa =>
      s.prefetchLine 0 0 va pa (s.pathOf (some 0) 0 leaf pa 0) true true)) = true ∧
    ((oneLane 0x3000).linePage 0x3000 .read = .ok (okOr (st, none) ((oneLane 0x3000).linePage 0x3000 .read)) ∧
      (okOr (st, none) ((oneLane 0x3000).linePage 0x3000 .read)).2.isNone) ∧
    (match (oneLane 0x1000).linePage 0x1000 .read with
      | .ok (s1, some (_, pa)) => ((s1.coreAt 0).line (pa / 128)).isNone && (s1.regs.pc + 8).toNat != windowBase
      | _ => false) = true ∧
    (match dirtied.linePage 0x1000 .read with
      | .ok (s1, some (_, pa)) => ((s1.coreAt 0).line (pa / 128)).any (fun l => l.dirty ≠ 0 && stands (s1.writeBackLine 0 l 0x02))
      | _ => false) = true ∧
    (match ((oneLane 0x1000).mapGang 0 (fun g => { g with replay := true })).linePage 0x1000 .read with
      | .ok (s1, some _) => s1.gang.replay
      | _ => false) = true := by
  refine ⟨next_stands _ rfl, ?_, quiet_of _ rfl rfl rfl, ?_, ?_, ⟨ok_eq _ _ ?_, ?_⟩, ?_, ?_, ?_⟩ <;> decide +kernel

/-! ### Witnesses: atomics, fences, barriers, queues, waits -/

theorem witness_AtomicPerformsItsGroups :
    let o := { at64 4 with var := 7 }
    let s := addressed
    ∃ s1 ts s2 t olds, atomicOf (.satom o) = some (0x202, o) ∧ quiet s ∧ o.la = 0 ∧
      s.targets s.cur .atomic 0x08 (s.atomicLanes 0x202 o) o.ty.size = .ok (s1, ts) ∧
      s1.atomicEvict (s1.atomicGroups (s.atomicLanes 0x202 o) ts) o.ty.size = .ok s2 ∧
      (∀ g ∈ s1.atomicGroups (s.atomicLanes 0x202 o) ts, performedHere g) ∧
      performAll ((s2.atomicPin ts).sealInterval s2.team.gang) 0x202 o (s1.atomicGroups (s.atomicLanes 0x202 o) ts) [] = .ok (t, olds) ∧ nextStands t := by
  refine ⟨_, _, _, _, _, rfl, quiet_of _ rfl rfl rfl, rfl, ok_pair (st, []) _ (by decide +kernel), ok_eq st _ (by decide +kernel), ?_,
    ok_pair (st, []) _ (by decide +kernel), next_stands _ (by decide +kernel)⟩
  intro g hg
  have h : ∀ g ∈ (okOr (st, []) (addressed.targets 0 .atomic 0x08 (addressed.atomicLanes 0x202 { at64 4 with var := 7 }) 8)).1.atomicGroups
      (addressed.atomicLanes 0x202 { at64 4 with var := 7 })
      (okOr (st, []) (addressed.targets 0 .atomic 0x08 (addressed.atomicLanes 0x202 { at64 4 with var := 7 }) 8)).2,
      ∃ a b, g.place = .scratch a b := by
    have : (okOr (st, []) (addressed.targets 0 .atomic 0x08 (addressed.atomicLanes 0x202 { at64 4 with var := 7 }) 8)).1.atomicGroups
      (addressed.atomicLanes 0x202 { at64 4 with var := 7 })
      (okOr (st, []) (addressed.targets 0 .atomic 0x08 (addressed.atomicLanes 0x202 { at64 4 with var := 7 }) 8)).2 =
        [⟨[0], 0x1FFFFF000000FF8, .scratch 0 4088⟩] := by decide +kernel
    rw [this]
    intro g hg
    simp at hg
    subst hg
    exact ⟨_, _, rfl⟩
  obtain ⟨a, b, hp⟩ := h g hg
  simp [performedHere, hp]

/-- The last word of the scratchpad, and the first. -/
theorem witness_ScratchpadScalarAtomicIsExact :
    quiet addressed ∧ nextStands addressed ∧ (at64 4).la = 0 ∧
    (let ea := addressed.regs.source (.reg 4)
     windowBase ≤ ea.toNat ∧ ea.toNat < 2 ^ 57 ∧ ea.toNat % 8 = 0 ∧ ea.toNat - windowBase + 8 ≤ addressed.gang.scratch) ∧
    addressed.gang.poisoned 4088 8 = false ∧
    ((addressed.regs.source (.reg 4) + 0xFFFFFFFFFFFFF008).toNat = windowBase ∧ (at64 4).ty.size = 8 ∧ ElemType.n32.size = 4) := by
  refine ⟨quiet_of _ rfl rfl rfl, next_stands _ rfl, rfl, ⟨?_, ?_, ?_, ?_⟩, ?_, ⟨?_, rfl, rfl⟩⟩ <;> decide +kernel

/-- Scope core (2), the widest that moves nothing; ACQ at die; SC at sys after a store that its L1 holds dirty; REL with an apply write on its way; the
gang of a replay. -/
theorem witness_FenceWritesBackAndInvalidates :
    (ElemType.s16.code.toNat < 3 ∧ nextStands st ∧ quiet st ∧ st.gang.replay = false ∧ st.writesOf (.team st.cur) = false) ∧
    3 ≤ ElemType.s32.code.toNat ∧
    (quiet dirtied ∧ dirtied.gang.replay = false ∧ (4 : BitVec 4).toNat < 5 ∧ 4 ≤ ElemType.n8.code.toNat ∧
      ∃ t, dirtied.release 0 = (t, none) ∧ t.writesOf (.team 0) = false ∧ t.fillsPending 0 = false ∧ nextStands t) ∧
    (quiet fencing ∧ fencing.writesOf (.team fencing.cur) = true ∧ ∃ t, fencing.release 0 = (t, none) ∧ t.writesOf (.team 0) = true) ∧
    (quiet replaying ∧ replaying.gang.replay = true ∧ nextStands replaying) := by
  refine ⟨⟨by decide, next_stands _ rfl, quiet_of _ rfl rfl rfl, rfl, by decide +kernel⟩, by decide,
    ⟨quiet_of _ (by decide +kernel) (by decide +kernel) (by decide +kernel), by decide +kernel, by decide, by decide, (dirtied.release 0).1,
      Prod.ext rfl (by decide +kernel), by decide +kernel, by decide +kernel, next_stands _ (by decide +kernel)⟩,
    ⟨quiet_of _ rfl rfl rfl, by decide +kernel, (fencing.release 0).1, Prod.ext rfl (by decide +kernel), by decide +kernel⟩,
    ⟨quiet_of _ rfl rfl rfl, rfl, next_stands _ rfl⟩⟩

/-- b1 takes one arrival more, b2 two, b3 has the next phase of the token 0, b4 two more; s4 holds the count 65535, s5 65536, s6 1. -/
def barred : State :=
  (withS (scr st 4096) [(4, 65535), (5, 65536), (6, 1)]).mapGang 0 (fun g => { g with
    barriers := [(1, ⟨true, 0, 1, 0, 0, 0, 0, true, (0, 0)⟩), (2, ⟨true, 0, 2, 0, 0, 0, 0, true, (0, 0)⟩), (3, ⟨true, 0, 2, 0, 0, 1, 0, true, (0, 0)⟩),
      (4, ⟨true, 0, 2, 0, 0, 2, 0, true, (0, 0)⟩)]
    queues := [(1, ⟨true, 0, 4088, 2, 1, 1, 0⟩), (2, ⟨true, 0, 4088, 1, 0, 1, 0⟩), (3, ⟨true, 0, 0, 1, 0, 0, 0⟩)] })

theorem witness_BarriersCountArrivalsAndBytes :
    (1 ≤ (barred.regs.source (.reg 4)).toNat ∧ (barred.regs.source (.reg 4)).toNat ≤ 65535 ∧ (barred.barrier 0 5).init = false ∧
      nextStands barred) ∧
    ((barred.regs.source (.reg 6)).toNat = 1 ∧ (barred.barrier 0 15).init = false ∧ (barred.barrier 0 1).init = true ∧
      nextStands (barred.completePhase 0 1)) ∧
    (barred.writesOf (.team barred.cur) = false ∧ (onItsWay barred).writesOf (.team (onItsWay barred).cur) = true ∧ quiet (onItsWay barred) ∧
      (ops (.reg 5) (.reg 1) (.reg 0)).var.getLsbD 0 = false ∧ { ops (.reg 5) (.reg 1) (.reg 0) with var := 1 }.var.getLsbD 0 = true) ∧
    (barred.tooLate 0 5 = false ∧ barred.tooLate 0 1 = false ∧
      (barred.mapTeam 0 (fun t => { t with slot := 1 })).tooLate 0 1 = false ∧
      (barred.mapGang 0 (fun g => { g with barriers := [(1, ⟨true, 0, 1, 0, 0, 0, 0, true, (0, 3)⟩)] })).tooLate 0 1 = true) ∧
    65535 < (barred.regs.source (.reg 5)).toNat ∧ quiet barred ∧
    ¬phaseDone (arrivedAt (barred.barrier 0 2) 2 0 false) ∧
    (phaseDone (arrivedAt (barred.barrier 0 1) 1 0 false) ∧
      nextStands ((withBarrier barred 0 1 (arrivedAt (barred.barrier 0 1) 1 0 false) (0, 0)).completePhase 0 1)) := by
  refine ⟨⟨?_, ?_, ?_, next_stands _ rfl⟩, ⟨?_, ?_, ?_, next_stands _ (by decide +kernel)⟩, ⟨?_, ?_, quiet_of _ rfl rfl rfl, ?_, ?_⟩,
    ⟨?_, ?_, ?_, ?_⟩, ?_, quiet_of _ rfl rfl rfl, ?_, ?_,
    next_stands _ (by decide +kernel)⟩ <;>
    first | decide +kernel | (unfold phaseDone; decide +kernel)

theorem witness_BarrierWaitsReturnOrBlock :
    ((barred.barrier 0 3).init = true ∧ 1 ≤ ((barred.barrier 0 3).phase - (barred.regs.source (.reg 0)).setWidth 16).toNat ∧
      2 ≤ ((barred.barrier 0 4).phase - (barred.regs.source (.reg 0)).setWidth 16).toNat ∧ (barred.barrier 0 3).gang = 0 ∧ nextStands barred) ∧
    ((barred.barrier 0 2).phase - (barred.regs.source (.reg 0)).setWidth 16).toNat = 0 ∧ (barred.barrier 0 5).init = false ∧
    { ops (.reg 5) (.reg 1) (.reg 0) with mode := 1 }.mode ≠ 0 ∧ { ops (.reg 5) (.reg 1) (.reg 0) with var := 1 }.var ≠ 0 ∧ quiet barred ∧
    (barred.writesOf (.team barred.cur) = false ∧ (onItsWay barred).writesOf (.team (onItsWay barred).cur) = true ∧ quiet (onItsWay barred) ∧
      heldHere (onItsWay barred) 2 = none) ∧
    (heldHere barred 2 = none ∧ barred.tooLate 0 2 = false ∧ ¬phaseDone (arrivedAt (barred.barrier 0 2) 2 0 true)) ∧
    (phaseDone (arrivedAt (barred.barrier 0 1) 1 0 true) ∧
      ∃ t, t = (withBarrier barred 0 1 (arrivedAt (barred.barrier 0 1) 1 0 true) (0, 0)).completePhase 0 1 ∧
        (t.dispatchAt (t.gangAt 0).dispatch).rollback = false ∧ (t.barrier 0 1).phase = (barred.barrier 0 1).phase + 1 ∧ t.team = barred.team) ∧
    ∃ h, heldHere (barred.mapTeam 0 (fun t => { t with held := [⟨false, 2, 0, 0x1000⟩] })) 2 = some h ∧ h.token = (barred.barrier 0 2).phase := by
  refine ⟨⟨?_, ?_, ?_, ?_, next_stands _ rfl⟩, ?_, ?_, ?_, ?_, quiet_of _ rfl rfl rfl, ⟨?_, ?_, quiet_of _ rfl rfl rfl, ?_⟩, ⟨?_, ?_, ?_⟩, ⟨?_, _, rfl, ?_, ?_, ?_⟩, ⟨false, 2, 0, 0x1000⟩, ?_, ?_⟩ <;>
    first | decide +kernel | (unfold phaseDone; decide +kernel)

/-- The team waits for the phase 0 of b1, whose last arrival has come. -/
theorem witness_PhaseCompletionReleasesItsWaiters :
    let s := barred.mapTeam 0 (fun t => { t with status := .waiting ⟨.barrier 1 0 true none 7, 5, false, 0⟩ })
    0 < (s.gangAt 0).nteams ∧ (∀ v ∈ s.teamsOf 0, ((s.teamAt v).regs.pc + 8).toNat ≠ windowBase) ∧
      ∃ w, (s.teamAt 0).status = .waiting w ∧ w.kind = .barrier 1 (s.barrier 0 1).phase true none 7 :=
  ⟨by decide +kernel, by decide +kernel, _, rfl, rfl⟩

/-- c1 holds one handle in two slots, c2 is full, c3 is empty, c4 is not initialised. -/
theorem witness_NamedQueuesKeepTheirOrder :
    quiet barred ∧ nextStands barred ∧ (barred.firstBlocked 0 1 true = none ∧ barred.firstBlocked 0 1 false = none) ∧
    (let s := withS barred [(4, 4092), (5, 1), (6, 64), (7, 3840)]
     (s.regs.source (.reg 4)).toNat % 4 = 0 ∧ (s.regs.source (.reg 4)).toNat + 4 * (s.regs.source (.reg 5)).toNat ≤ s.gang.scratch ∧
       (s.regs.source (.reg 6)).toNat ≤ 64 ∧ (s.regs.source (.reg 7)).toNat + 4 * (s.regs.source (.reg 6)).toNat ≤ s.gang.scratch) ∧
    (barred.queueTag 0 1 = true ∧ (barred.namedQueue 0 1).count < (barred.namedQueue 0 1).slots) ∧
    (barred.queueTag 0 2 = true ∧ (barred.namedQueue 0 2).slots ≤ (barred.namedQueue 0 2).count) ∧
    (0 < (barred.namedQueue 0 1).count ∧ barred.gang.poisoned 4092 4 = false) ∧ (barred.queueTag 0 3 = true ∧ (barred.namedQueue 0 3).count = 0) ∧
    ((barred.namedQueue 0 1).init = true ∧ (barred.namedQueue 0 4).init = false) ∧ barred.queueTag 0 4 = false ∧
    ¬((barred.namedQueue 0 1).tried = barred.cycles + 1 ∨ barred.writesOf (.team barred.cur) = true) ∧
    (quiet (onItsWay barred) ∧ (onItsWay barred).queueTag 0 1 = true ∧ (onItsWay barred).writesOf (.team (onItsWay barred).cur) = true) ∧
    { ops (.reg 5) (.reg 1) (.reg 0) with var := 1 }.var ≠ 0 := by
  refine ⟨quiet_of _ rfl rfl rfl, next_stands _ rfl, ⟨?_, ?_⟩, ⟨?_, ?_, ?_, ?_⟩, ⟨?_, ?_⟩, ⟨?_, ?_⟩, ⟨?_, ?_⟩, ⟨?_, ?_⟩, ⟨?_, ?_⟩, ?_, ?_,
    ⟨quiet_of _ rfl rfl rfl, ?_, ?_⟩, ?_⟩ <;> decide +kernel

/-- Well-formed records in scratchpad at 32 and one malformed at 64, a counter at 0 that holds 1 (s4) and one at 8 that holds 2 (s8), and a
persistent gang; dispatch 1 may be fetched from, and mailbox 64 has a request outstanding. -/
def recorded : State :=
  let s := withS (scr st 4096) [(4, 0x1FFFFF000000000), (5, 0x1FFFFF000000020), (6, 0x1FFFFF000000040), (7, 4080), (8, 0x1FFFFF000000008), (9, 64),
    (10, 1)]
  let s := s.mapGang 0 (fun g => { ((g.store 0 [1]).store 8 [2]).store 89 [0x20] with persistent := true, fetches := [⟨64, 1⟩] })
  s.mapDispatch 1 (fun d => { d with valid := true, fetchable := true, dimX := 2, dimY := 1, dimZ := 1 })

theorem witness_ContinuationsAndMailboxes_spawn :
    (∃ s1 s2 bs, (recorded.regs.source (.reg 5)).toNat % 32 = 0 ∧ recorded.fence 1 4 = .ok s1 ∧
      s1.readRecord (recorded.regs.source (.reg 5)) = .ok (s2, bs) ∧ nextStands (s2.sealInterval s2.team.gang) ∧
      recordShape (recordWord bs 0) (recordWord bs 3) ≠ none ∧
      ((s2.sealInterval s2.team.gang).queueAt ((s2.sealInterval s2.team.gang).dispatchAt 0).queue).conts.length < 4096) ∧
    (∃ s2 bs, recorded.readRecord (recorded.regs.source (.reg 6)) = .ok (s2, bs) ∧ recordShape (recordWord bs 0) (recordWord bs 3) = none) ∧
    ¬((recorded.mapQueue 0 (fun q => { q with conts := List.replicate 4096 ⟨0, 0, 0, 0, 0, 0⟩ })).queueAt 0).conts.length < 4096 := by
  refine ⟨⟨_, _, _, by decide +kernel, ok_eq st _ (by decide +kernel), ok_pair (st, []) _ (by decide +kernel), next_stands _ (by decide +kernel),
    by decide +kernel, by decide +kernel⟩, ⟨_, _, ok_pair (st, []) _ (by decide +kernel), by decide +kernel⟩, by decide +kernel⟩

/-- An access that stands and gives one element. -/
def one {ε α β : Type} (r : Except ε (α × List β)) : Bool := match r with | .ok (_, [_]) => true | _ => false

theorem one_eq {ε α β : Type} (d : α) (e : β) (r : Except ε (α × List β)) (h : one r = true) :
    r = .ok ((okOr (d, []) r).1, [(okOr (d, []) r).2.headD e]) := by
  match r, h with
  | .ok (_, [_]), _ => rfl

/-- JOIN s5, s4, s5 of the recorded state: its counter holds 1. -/
theorem witness_ContinuationsAndMailboxes_join :
    let c := recorded.regs.source (.reg 4)
    let r := recorded.regs.source (.reg 5)
    let op := ops (.reg 5) (.reg 4) (.reg 5) .n64
    ∃ s1 s2 s3 s4 s5 t bs tgt0 tgt old, quiet recorded ∧ c.toNat % 8 = 0 ∧ r.toNat % 32 = 0 ∧ recorded.fence 1 4 = .ok s1 ∧
      s1.targets s1.cur .atomic 0x08 [(0, c)] 8 = .ok (s2, [tgt0]) ∧ s2.readRecord r = .ok (s3, bs) ∧
      s3.targets s3.cur .atomic 0x08 [(0, c)] 8 = .ok (s4, [tgt]) ∧
      s4.atomicEvict (s4.atomicGroups [(0, c)] [tgt]) 8 = .ok s5 ∧
      s4.atomicGroups [(0, c)] [tgt] = [⟨[0], 0x1FFFFF000000000, .scratch 0 0⟩] ∧
      performAll ((s5.atomicPin [tgt]).sealInterval s5.team.gang) 0x252 op (s4.atomicGroups [(0, c)] [tgt]) [] = .ok (t, [old]) ∧ old = (0, 1) ∧ nextStands t ∧
      (t.pushContinuation bs).2 = .done ∧ nextStands (t.pushContinuation bs).1 ∧
      op.var = 0 ∧ counterAt ((s5.atomicPin [tgt]).sealInterval s5.team.gang) tgt.2 = some 1 :=
  ⟨_, _, _, _, _, _, _, _, _, _, quiet_of _ (by decide +kernel) (by decide +kernel) (by decide +kernel), by decide +kernel, by decide +kernel, ok_eq st _ (by decide +kernel),
    one_eq st (0, .scratch 0) _ (by decide +kernel), ok_pair (st, []) _ (by decide +kernel), one_eq st (0, .scratch 0) _ (by decide +kernel),
    ok_eq st _ (by decide +kernel), by decide +kernel, one_eq st (0, 0) _ (by decide +kernel), by decide +kernel,
    next_stands _ (by decide +kernel), by decide +kernel, next_stands _ (by decide +kernel), rfl, by decide +kernel⟩

/-- A counter that holds 2, a malformed record, a full continuation queue. -/
theorem witness_ContinuationsAndMailboxes_join_others :
    leNat (recorded.gang.scratchpad.read 8 8) = 2 ∧
    (recorded.pushContinuation (List.replicate 25 0 ++ [0x20] ++ List.replicate 6 0)).2 = .malformed ∧
    ((recorded.mapQueue 0 (fun q => { q with conts := List.replicate 4096 ⟨0, 0, 0, 0, 0, 0⟩ })).pushContinuation (List.replicate 32 0)).2 = .full := by
  refine ⟨?_, ?_, ?_⟩ <;> decide +kernel

theorem witness_ContinuationsAndMailboxes_fetchw :
    recorded.gang.persistent = true ∧ nextStands recorded ∧
    ((recorded.regs.source (.reg 7)).toNat % 16 = 0 ∧ (recorded.regs.source (.reg 7)).toNat + 16 ≤ recorded.gang.scratch) ∧
    (recorded.dispatchAt 0).fetchableBy (recorded.ctxOf 0) = false ∧ (recorded.dispatchAt 1).fetchableBy (recorded.ctxOf 0) = true ∧
    recorded.gang.fetches.any (fun f => f.mailbox = (recorded.regs.source (.reg 9)).toNat) = true ∧
    recorded.gang.fetches.any (fun f => f.mailbox = (recorded.regs.source (.reg 7)).toNat) = false ∧ stands (recorded.fence 1 5) = true ∧
    st.gang.persistent = false := by
  refine ⟨?_, next_stands _ (by decide +kernel), ⟨?_, ?_⟩, ?_, ?_, ?_, ?_, ?_, ?_⟩ <;> decide +kernel

/-- A word of scratchpad at 0 that holds 5, waited for in s4; s9 names the own team for a tag `.p`. -/
def waitingWord : State := (withS (scr st 64) [(4, 0x1FFFFF000000000), (5, 5), (6, 6), (7, 4095), (8, 0)]).mapGang 0 (fun g => g.store 0 [5])

theorem witness_WaitsCompleteOrBlock :
    (let o := { ops (.reg 9) (.reg 4) (.reg 5) .n64 with mode := 2 }
     ∃ s1 w, quiet waitingWord ∧ waitingWord.waitWord 0 (waitingWord.regs.source o.a) o.ty.size = .ok (s1, w) ∧
       waitingWord.tagPasses o.mode (waitingWord.sreg 9) = true ∧ o.var.toNat < 3 ∧
       waitHolds 0 o w (waitingWord.waitValue o).toNat ∧ waitHolds 2 o w (waitingWord.waitValue o).toNat ∧ nextStands s1 ∧
       ¬waitHolds 1 o w (waitingWord.waitValue o).toNat) ∧
    waitingWord.tagPasses 3 (waitingWord.sreg 9) = false ∧
    (let s := waitingWord.mapHub (fun h => { h with ctxs := h.ctxs.update 0 (fun c => { c with nbase := 4094, ncnt := 2 }) })
     (s.ctxAt 0).nbase ≤ (s.regs.source (.reg 7)).toNat ∧ (s.regs.source (.reg 7)).toNat < (s.ctxAt 0).nbase + (s.ctxAt 0).ncnt ∧
       (s.regs.source (.reg 8)).toNat ≤ (s.net.counters.get 0 4095).toNat ∧ (s.net.counters.get 0 4095).toNat < (s.regs.source (.reg 5)).toNat ∧
       ¬(s.ctxAt 0).nbase ≤ (s.regs.source (.reg 5)).toNat) ∧ ({ ops (.reg 9) (.reg 4) (.reg 5) .n64 with mode := 0 }).mode ≠ 2 := by
  refine ⟨⟨(okOr (st, 0) (waitingWord.waitWord 0 0x1FFFFF000000000 8)).1, 5, quiet_of _ ?_ ?_ ?_, ?_, ?_, ?_, ?_, ?_, ?_, ?_⟩, ?_, ⟨?_, ?_, ?_, ?_, ?_⟩, ?_⟩
  case refine_4 => exact (ok_pair (st, 0) _ (by decide +kernel)).trans (congrArg _ (Prod.ext rfl (by decide +kernel)))
  case refine_9 => exact next_stands _ (by decide +kernel)
  all_goals first | decide +kernel | (simp only [waitHolds]; decide +kernel)

/-! ### Witnesses: queue registers and engine commands -/

/-- Queue registers q1 to q4 bound to the matrix engine, the copy engine, the network and a bed; the bed, of one plot, stands in slice 95 of
context 0; the matrix engine of core 0 is free, of core 1 owned by gang 0, of core 2 by gang 7. -/
def bound_ : State :=
  let s := withS (scr st 65536) [(4, 0x1000), (5, 0x8000000002), (6, 0x1002), (7, 0x482FF), (8, 0x300000001), (9, 7)]
  let s := s.setRegs { s.regs with q := [(1, .matrix), (2, .copy), (3, .network), (4, .loam 0x482FF)] }
  let s := s.mapSlice 95 (fun c => { c with beds := [(7, ⟨0x80, 0, 4, [], [], false⟩)] })
  (s.mapCore 1 (fun c => { c with engine := .first (some 0) })).mapCore 2 (fun c => { c with engine := .first (some 7) })

theorem witness_QueueRegistersBindAndUnbind :
    nextStands bound_ ∧
    ((bound_.regs.source (.reg 4)).toNat % 4 = 0 ∧ ((bound_.regs.source (.reg 5)).extractLsb' 32 32).toNat % 4 = 0) ∧
    ¬((bound_.regs.source (.reg 6)).toNat % 4 = 0 ∧ ((bound_.regs.source (.reg 5)).extractLsb' 32 32).toNat % 4 = 0) ∧
    (bound_.coreAt 0).engine.owner = none ∧ (bound_.coreAt 1).engine.owner = some 0 ∧ ((bound_.coreAt 2).engine.owner = some 7 ∧ 7 ≠ (0 : Nat)) ∧
    (bound_.bedOf 0 ((bound_.regs.source (.reg 7)).setWidth 24)).isSome = true ∧ bound_.bedOf 0 ((bound_.regs.source (.reg 4)).setWidth 24) = none := by
  refine ⟨next_stands _ (by decide +kernel), ⟨?_, ?_⟩, ?_, ?_, ?_, ⟨?_, ?_⟩, ?_, ?_⟩ <;> decide +kernel

/-- Operands of copy commands in s16 to s23: a copy of 64 bytes within scratchpad; in s24 to s31 a fill of n32; in s32 to s39 a gather of one
row of 4 bytes from the placed page; s8 is a spec that names the word at 4 and barrier b1 with reserved bits clear. -/
def copying : State :=
  (withS bound_ [(8, 0x100001004), (9, 0x200000000), (16, 0x1FFFFF000000100), (17, 0x1FFFFF000000000), (18, 0x100000040), (24, 0x1FFFFF000000200),
    (25, 0xABCD), (26, 0x100000040), (32, 0x1FFFFF000000300), (33, 0x1000), (34, 0x100000004), (35, 0x1FFFFF000000000), (36, 4), (37, 4),
    (38, 16)]).mapGang 0 (fun g => { g with barriers := [(1, ⟨true, 0, 1, 0, 0, 0, 0, true, (0, 0)⟩)] })

/-- A command of a core's scheduler that does nothing here. -/
def idleCmd (n : Nat) : Cmd := ⟨n, 0, 0, 0, 0, 0, .matrix .accz, [], [], false, false, 0, none, ⟨none, none⟩⟩

/-- A scheduler that holds 64 commands, 32 of them of the matrix engine and waiting. -/
def full (s : State) : State :=
  s.mapCore 0 (fun c => { c with cmds := (List.range 64).map (fun n => { idleCmd n with started := decide (32 ≤ n) }) })

/-- The fields of an engine command through q`d`. -/
def command (d : BitVec 8) (a b : BitVec 8) (var : BitVec 4 := 0) (ty : ElemType := .untyped) : Ops := { ops (.queue d) (.reg a) (.reg b) ty with var := var }

theorem witness_CopyInstructionEntersItsCommand :
    (∃ c, copyOf copying (.cpy (command 2 16 9 8)) = some (command 2 16 9 8, c) ∧ copying.copyCheck c (copying.regs.source (.reg 9)) true false = none) ∧
    (∃ c, copyOf copying (.cpyf (command 2 24 0 0 .n32)) = some (command 2 24 0 0 .n32, c) ∧ copying.copyCheck c 0 false false = none) ∧
    (∃ c, copyOf copying (.cpyg (command 2 32 0 0 .n32)) = some (command 2 32 0 0 .n32, c) ∧ copying.copyCheck c 0 false false = none) ∧
    (copying.targetOf (command 2 16 9) = some .copy ∧ (copying.coreAt copying.gang.core).cmds.length < 64 ∧ nextStands copying) ∧
    64 ≤ ((full copying).coreAt (full copying).gang.core).cmds.length ∧ copying.targetOf (command 1 16 9) ≠ some .copy ∧
    (∃ c, copyOf copying (.cpy (command 2 8 9)) = some (command 2 8 9, c) ∧
      copying.copyCheck c (copying.regs.source (.reg 9)) false false = some (.trap .illegalRegister 0 0 false)) := by
  refine ⟨⟨_, rfl, ?_⟩, ⟨_, rfl, ?_⟩, ⟨_, rfl, ?_⟩, ⟨?_, ?_, next_stands _ (by decide +kernel)⟩, ?_, ?_, ⟨_, rfl, ?_⟩⟩ <;> decide +kernel

/-- A format block of int8 and K = 4 in s10, s11, its operands at 0 and 256 in s12; the largest K, 512, in s14; an ill-formed K = 0 in s16; a
scale load of one entry in s18 and s19; an epilogue of FP32 rows in s20. -/
def multiplying : State :=
  withS bound_ [(10, 0x0000100000000011), (11, 0), (12, 0x0000010000000000), (14, 0x0008000000000011), (15, 0), (16, 0x11), (17, 0), (18, 0),
    (19, 0x100001FFF), (20, 0x01000000), (21, 0), (22, 0)]

theorem witness_MatrixInstructionEntersItsCommand :
    (matrixOf multiplying (.mma (command 1 10 12))).isSome = true ∧ (matrixOf multiplying (.scld (command 1 18 19))).isSome = true ∧
    (matrixOf multiplying (.accz (command 1 0 0))).isSome = true ∧ (matrixOf multiplying (.accadv (command 1 0 0))).isSome = true ∧
    (matrixOf multiplying (.epcfg (command 1 20 22))).isSome = true ∧
    (matrixOf (withS multiplying [(10, 0x0000100000000411), (11, 512)]) (.mmaSp (command 1 10 12))).isSome = true ∧
    (matrixOf (withS multiplying [(10, 0x0000100000000811)]) (.mmaTri (command 1 10 12))).isSome = true ∧
    illFormed .dense (multiplying.sreg 14) (multiplying.sreg 15) = false ∧
    (multiplying.targetOf (command 1 10 12) = some .matrix ∧ engineRoom multiplying ∧ nextStands multiplying) ∧ ¬engineRoom (full multiplying) ∧
    multiplying.targetOf (command 2 10 12) ≠ some .matrix ∧
    ((command 1 16 12).a.num ≠ 0 ∧ (command 1 16 12).a.num.toNat % 2 = 0 ∧ illFormed .dense (multiplying.sreg 16) (multiplying.sreg 17) = true) := by
  refine ⟨?_, ?_, ?_, ?_, ?_, ?_, ?_, ?_, ⟨?_, ?_, next_stands _ (by decide +kernel)⟩, ?_, ?_, ?_, ?_, ?_⟩ <;>
    first | decide +kernel | (unfold engineRoom; decide +kernel)

theorem none_wait (s : State) (h : s.teams.all (fun p => p.2.status = .ready) = true) : ∀ p ∈ s.teams, ∀ w, p.2.status ≠ .waiting w := by
  intro p hp w hw
  simp only [List.all_eq_true, decide_eq_true_eq] at h
  simp [h p hp] at hw

/-- Context 0 with the connections and receive counters 4094 and 4095; a group of NSENDT in s12 to s15 with the whole of a local range up to
2^57 − 1, counter 4095 and connection 4095. -/
def networking : State :=
  (withS bound_ [(12, 0x1000), (13, 64), (14, 0x100FFF0300), (15, 0xFFF0000000000001), (16, 0xFFF), (17, 5), (8, 0x500000004)]).mapHub (fun h =>
    { h with ctxs := h.ctxs.update 0 (fun c => { c with cbase := 4094, ccnt := 2, nbase := 4094, ncnt := 2, qlim := 8 }) })

theorem witness_NetworkInstructionEntersItsCommand :
    (∀ p ∈ [(Instr.npost (command 3 12 8 8), NetKind.npost), (.nunpost (command 3 12 8 8), .nunpost), (.nsend (command 3 12 8 8), .nsend),
      (.nsendt (command 3 12 8 8), .nsendt)], netOf p.1 = some (p.2, command 3 12 8 8) ∧
        netStands networking (command 3 12 8 8) (netCommand networking (command 3 12 8 8) p.2)) ∧
    (networking.targetOf (command 3 12 8 8) = some .network ∧ (command 3 12 8 8).var.toNat % 8 = 0 ∧
      (networking.coreAt networking.gang.core).netq.length < 32 ∧ nextStands networking) ∧
    32 ≤ ((networking.mapCore 0 (fun k => { k with netq := List.replicate 32 (netCommand networking (command 3 12 8) .nsend) })).coreAt 0).netq.length ∧
    networking.targetOf (command 2 12 8) ≠ some .network ∧
    (let n := ((networking.regs.source (.reg 16)).extractLsb' 0 12).toNat
     (networking.ctxAt 0).nbase ≤ n ∧ n < (networking.ctxAt 0).nbase + (networking.ctxAt 0).ncnt ∧ networking.net.armed = [] ∧
       (∀ p ∈ networking.teams, ∀ w, p.2.status ≠ .waiting w) ∧ nextStands (networking.setCounter n (0 - networking.regs.source (.reg 17)))) ∧
    ¬((networking.ctxAt 0).nbase ≤ ((networking.regs.source (.reg 17)).extractLsb' 0 12).toNat) := by
  refine ⟨?_, ⟨?_, ?_, ?_, next_stands _ (by decide +kernel)⟩, ?_, ?_,
    ⟨?_, ?_, ?_, none_wait _ (by decide +kernel), next_stands _ (by decide +kernel)⟩, ?_⟩
  · intro p hp
    simp only [List.mem_cons, List.not_mem_nil, or_false] at hp
    rcases hp with rfl | rfl | rfl | rfl <;> exact ⟨rfl, by unfold netStands; decide +kernel⟩
  all_goals decide +kernel

/-- Descriptors of loam commands in s10, s11: D 8 rows signed at 0, X 8 rows signed at 8, Y at 16, M one row at 472 + 7. -/
def working : State := withS networking [(10, 0x00008E0800008E00), (11, 0x000001DF00008E10), (12, 0x00008E0800000000), (13, 0x400000008E00), (14, 1),
  (18, 0x8E00), (19, 0x4000), (20, 8), (21, 9), (22, 0), (23, 0x5F01), (24, 0xFF08), (25, 0x10001)]

theorem witness_LoamInstructionEntersItsCommand :
    (∀ i ∈ [Instr.ladd (command 4 10 0), .ladd (command 4 10 9 12), .lsub (command 4 10 0), .lmul (command 4 10 0), .llog (command 4 10 0 3),
      .lcmp (command 4 12 9 4), .lsel (command 4 10 0 8), .lmm (command 4 10 0 1), .lshf (command 4 10 9 2), .lred (command 4 10 9 3),
      .lmatch (command 4 12 9), .lcnt (command 4 10 0)], (loamOf working i).isSome = true) ∧
    (∀ i ∈ [Instr.lmin (command 4 18 9), .lmout (command 4 18 9), .ldone (command 4 22 9)], (loamMove working 16384 i).isSome = true) ∧
    (working.targetOf (command 4 10 0) = some (.loam 0x482FF) ∧ working.bedOf (working.ctxOf 0) 0x482FF = some (95, 7) ∧ loamRoom working 95 7 ∧
      nextStands working) ∧
    ¬loamRoom (full working) 95 7 ∧ (working.targetOf (command 2 10 0) = some .copy) ∧ (working.coreAt working.gang.core).cmds.length < 64 ∧
    64 ≤ ((full working).coreAt (full working).gang.core).cmds.length ∧
    (let quota := (working.ctxAt (working.ctxOf 0)).quota
     quota = 8 ∧ quota < ((working.regs.source (.reg 21)).extractLsb' 0 4).toNat ∧ ((working.regs.source (.reg 24)).extractLsb' 0 4).toNat ≤ quota ∧
       (working.regs.source (.reg 25)).extractLsb' 16 48 ≠ 0 ∧ ((working.regs.source (.reg 22)).extractLsb' 0 4).toNat = 0 ∧
       ((working.regs.source (.reg 23)).extractLsb' 8 8).toNat = 95 ∧ (working.sliceAt 95).grantable 1 = some [0] ∧
       working.refusesPlots 95 1 = false ∧ (working.sliceAt 95).grantable 8 = none) ∧
    (let has (k : Nat) : Bool := ((working.sliceAt k).grantable 1).isSome
     ((0 :: ((List.range 24).map (fun i => 24 * (0 / 24) + i)).filter (fun k => k ≠ 0) ++ (List.range 96).filter (fun k => k / 24 ≠ 0 / 24)).find?
       (fun k => has k && !working.refusesPlots k 1) = some 0) ∧
     (let s := (working.mapSlice 95 (fun c => { c with modes := (List.range 7).map (fun p => (p + 1, .operator)) })).mapMem (fun m =>
        { m with copies := [(95, ⟨0, 0, [], true, 0, 0⟩)] })
      [95].find? (fun k => ((s.sliceAt k).grantable 1).isSome && !s.refusesPlots k 1) = none ∧ ((s.sliceAt 95).grantable 1).isSome = true)) := by
  refine ⟨by decide +kernel, by decide +kernel, ⟨?_, ?_, ?_, next_stands _ (by decide +kernel)⟩, ?_, ?_, ?_, ?_,
    ⟨?_, ?_, ?_, ?_, ?_, ?_, ?_, ?_, ?_⟩, ?_⟩ <;>
    first | decide +kernel | (unfold Claims.loamRoom; decide +kernel)

/-! ### Witnesses: operators and privileged instructions -/

/-- Operator slot 6 of slice 2 assigned to context 0 and free (handle 22, s4), slot 7 holds a sealed operator (handle 23, s8) and slot 5 one of
2 × 2 elements that is not sealed (handle 21, s9); s6, s7 hold a source of 1 × 2 elements at 0x1000. -/
def operating : State :=
  let slot : OpSlot := { OpSlot.none with valid := true, plots := 0x02, ctx := 0, applyPages := 1, resultPages := 1 }
  let op : Operator := ⟨.f16, .f32, 2, 2, 1, [(0, 0x00), (1, 0x3C)], false, false, [], [], []⟩
  (withS st [(4, 22), (6, 0x1000), (7, 0x1000), (8, 23), (9, 21), (10, 0x1001), (11, 0), (12, 1), (13, 0x2000), (14, 0x4003F03FFFF)]).mapSlice 2 (fun c =>
    { c with slots := ((c.slots.set 6 slot).set 7 { slot with op := some { op with isSealed := true } }).set 5 { slot with op := some op } })

theorem witness_OperatorInstructionsActOnTheirSlot :
    let shape : OpShape := ⟨1, 2, 1, 0⟩
    operating.team.deferred = [] ∧ nextStands operating ∧ (operating.sreg 6).toNat % 2 = 0 ∧ (operating.sreg 10).toNat % 2 ≠ 0 ∧
    operating.handleFor 0 (operating.sreg 4) = some (2, 6) ∧ operating.handleFor 0 (operating.sreg 6) = none ∧
    (((operating.sliceAt 2).slot 7).installer ≠ some 0 ∧ ((operating.sliceAt 2).slot 7).op.isSome = true) ∧
    (((operating.sliceAt 2).slot 6).installer = none ∧ ((operating.sliceAt 2).slot 6).installing = false ∧ ((operating.sliceAt 2).slot 6).op = none ∧
      ((operating.sliceAt 2).slot 6).fits 2 4 shape = true ∧ ((operating.sliceAt 2).slot 6).fits 2 4 ⟨1, 4096, 1, 0⟩ = false ∧
      operating.refusesPlots 2 1 = false) ∧
    (∃ s1 s2 m bad, ((operating.wakeSlice 2).mapSlot 2 6 (fun q => { q with installing := true, installer := some 0 })).fence 1 4 = .ok s1 ∧
      s1.readMatrix (operating.sreg 6) 2 shape = .ok (s2, m, bad) ∧ nextStands ((s2.setPlots 2 [1] .operator).mapSlot 2 6 (fun q => { q with
        op := some ⟨.f16, .f32, 1, 2, 1, m, bad, false, [], [], []⟩ }))) ∧
    (operating.installBy 0 = none ∧ (operating.mapSlot 2 6 (fun q => { q with installer := some 0 })).installBy 0 = some (2, 6)) ∧
    (let p := ((operating.sliceAt 2).slot 7).op.getD ⟨.f16, .f32, 2, 2, 1, [], false, false, [], [], []⟩
     (∀ b ∈ (p.resultSlot 0).bad, b < p.qstride - 8) ∧
     (let p := { p with result := [(0, ⟨[], 0, 0, 0, 0, [p.qstride - 1]⟩)] }
      ∃ b ∈ (p.resultSlot 0).bad, p.qstride - 8 ≤ b)) ∧
    operating.operatorFor (operating.sreg 4) = none ∧ (operating.operatorFor (operating.sreg 8)).any (fun p => p.2.2.s = 1) = true ∧
    (((operating.sliceAt 2).slot 6).installed = none ∧ ((operating.sliceAt 2).slot 7).installed.any (fun p => p.isSealed) = true ∧
      ((operating.sliceAt 2).slot 5).installed.any (fun p => !p.isSealed && p.m = 2 && p.n = 2) = true) := by
  refine ⟨?_, next_stands _ (by decide +kernel), ?_, ?_, ?_, ?_, ⟨?_, ?_⟩, ⟨?_, ?_, ?_, ?_, ?_, ?_⟩, ?_, ⟨?_, ?_⟩, ?_, ?_, ?_, ⟨?_, ?_, ?_⟩⟩
  case refine_14 =>
    exact ⟨_, _, _, _, ok_eq st _ (by decide +kernel), ok_triple (st, [], false) _ (by decide +kernel), next_stands _ (by decide +kernel)⟩
  all_goals decide +kernel

/-- A slice whose pinned lines exceed the lines of the plots left. -/
theorem witness_OperatorInstructionsActOnTheirSlot_pinned :
    (((operating.mapSlice 2 (fun c => { c with modes := (List.range 8).map (fun p => (p, .operator)) })).mapMem (fun m =>
      { m with copies := [(2, ⟨0, 0, [], true, 0, 0⟩)] })).refusesPlots 2 1) = true := by decide +kernel

/-- A privileged context; an ECALL of team 16, in gang 1, is parked under id 3 of function 0; id 4 is free; s4 names the own gang, s5 gang 9, s6
a page, s7 id 3, s8 id 4, s9 function 1 and s10 a range of context 0. -/
def privileged : State :=
  let s := withS st [(4, 0), (5, 9), (6, 0x1000), (7, 3), (8, 4), (9, 0x100000000), (10, 16), (11, 0x1001)]
  let s := { s with
    teams := s.teams.set 16 { placedTeam with gang := 1, status := .parked 0 3 .environmentCall (.ecall 12) }
    gangs := s.gangs.set 1 { placedGang with glin := 1, dispatch := 1 } }
  (s.mapDispatch 1 (fun d => { d with ctx := 1, valid := true })).mapHub (fun h => { h with
    held := [⟨0, 3, .environmentCall, none, [.team 16]⟩]
    ctxs := h.ctxs.set 1 { CtxRecord.none with valid := true, vfid := 1 } })

theorem witness_PrivilegedInstructionsAct :
    nextStands privileged ∧ privileged.gangNamed (privileged.sreg 5) = none ∧
    (privileged.gangNamed (privileged.sreg 4) = some 0 ∧ mayActOn privileged (privileged.fnOf (privileged.dispatchAt (privileged.gangAt 0).dispatch).ctx) ∧
      privileged.saveInProgress 0 = false ∧ (privileged.sreg 6).toNat % 4096 = 0 ∧ (privileged.sreg 11).toNat % 4096 ≠ 0 ∧
      (privileged.mapTeam 16 (fun t => { t with deferred := [⟨0, 5, .ctxsave 0 0x1000⟩] })).saveInProgress 0 = true) ∧
    (∃ s1 n, privileged.acceptImage (fun k => privileged.readImage privileged.cur (privileged.sreg 6).toNat k) = .ok (s1, n) ∧ nextStands s1) ∧
    (∃ x, privileged.hub.held.find? (fun x => x.fn = 0 && x.id = 3) = some x ∧ x.holds = [.team 16] ∧ 16 ≠ privileged.cur ∧
      (privileged.teamAt 16).status = .parked 0 3 .environmentCall (.ecall 12) ∧ ((privileged.teamAt 16).regs.pc + 8).toNat ≠ windowBase) ∧
    (let s := privileged.mapTeam 16 (fun t => { t with status := .parked 0 3 .pageNotPresent .reissue })
     (∃ x, s.hub.held.find? (fun x => x.fn = 0 && x.id = 3) = some x ∧ x.holds = [.team 16]) ∧
       (s.teamAt 16).status = .parked 0 3 .pageNotPresent .reissue) ∧
    privileged.hub.held.find? (fun x => x.fn = 0 && x.id = 4) = none ∧
    (∃ s1, privileged.fence 1 4 = .ok s1 ∧ nextStands s1 ∧ mayActOn s1 (s1.fnOf 0) ∧ (s1.regs.source (.reg 10)).extractLsb' 0 48 ≠ 0 ∧
      (s1.regs.source (.reg 4)).extractLsb' 0 48 = 0 ∧ s1.fnOf (s1.ctxOf s1.cur) = 0) := by
  refine ⟨next_stands _ (by decide +kernel), ?_, ⟨?_, ?_, ?_, ?_, ?_, ?_⟩, ?_, ?_, ⟨⟨_, rfl, rfl⟩, rfl⟩, ?_, ?_⟩
  case refine_3 => unfold mayActOn; decide +kernel
  case refine_8 => exact ⟨_, _, ok_pair (st, 0) _ (by decide +kernel), next_stands _ (by decide +kernel)⟩
  case refine_9 => exact ⟨⟨0, 3, .environmentCall, none, [.team 16]⟩, by decide +kernel, rfl, by decide +kernel, by decide +kernel, by decide +kernel⟩
  case refine_11 =>
    exact ⟨_, ok_eq st _ (by decide +kernel), next_stands _ (by decide +kernel), by unfold mayActOn; decide +kernel, by decide +kernel,
      by decide +kernel, by decide +kernel⟩
  all_goals decide +kernel

/-- The same team in a context of function 1: it may act on nothing of function 0. -/
theorem witness_PrivilegedInstructionsAct_outOfReach :
    let s := privileged.mapHub (fun h => { h with ctxs := h.ctxs.update 0 (fun c => { c with vfid := 1 }) })
    ¬mayActOn s 0 ∧ mayActOn s 1 ∧ s.fnOf (s.ctxOf s.cur) ≠ 0 ∧ stands (s.fence 1 4) = true := by
  refine ⟨?_, ?_, ?_, ?_⟩ <;> first | decide +kernel | (unfold mayActOn; decide +kernel)

/-! ### Witnesses: steps of teams, gangs and host queues -/

/-- The team waits on the word at 0 of its scratchpad, which holds 5, for a value, with a hint, past its first `n` ticks. -/
def waitingFor (v : DWord) (hint : Option Nat) (n : Nat) : State :=
  waitingWord.mapTeam 0 (fun t => { t with status := .waiting ⟨.word 0x1FFFFF000000000 0 .n64 v hint 7, n, false, 0⟩ })

theorem witness_TimeLimitsEndWaits :
    let limit := ((waitingFor 5 none 0).queueAt ((waitingFor 5 none 0).dispatchOf 0).queue).limit
    (∃ w, (waitingFor 6 none (limit / 2 + 1)).team.status = .waiting w ∧ hintOf w.kind = none ∧ w.half = false ∧ limit < 2 * w.ticks ∧ w.ticks < limit) ∧
    (∃ w, (waitingFor 6 none (limit / 2)).team.status = .waiting w ∧ 2 * w.ticks ≤ limit) ∧
    (∃ w, (waitingFor 6 none limit).team.status = .waiting w ∧ hintOf w.kind = none ∧ w.ticks = limit) ∧
    (∃ w, (waitingFor 6 none (limit + 1)).team.status = .waiting w ∧ hintOf w.kind = none ∧ limit < w.ticks) ∧
    (∃ w, (barred.mapTeam 0 (fun t => { t with status := .waiting ⟨.barrier 2 0 false none 7, limit + 1, true, 0⟩ })).team.status = .waiting w ∧
      hintOf w.kind = none ∧ limit < w.ticks ∧ w.half = true ∧ (∀ ea c ty v h d, w.kind ≠ .word ea c ty v h d)) ∧
    (∃ s1, (waitingFor 5 (some 256) 256).waitWord 0 0x1FFFFF000000000 8 = .ok (s1, 5) ∧ nextStandsOf s1 0) ∧
    (condHolds 0 .n64 5 5 = true ∧ condHolds 0 .n64 5 6 = false) ∧
    (∃ w, (barred.mapTeam 0 (fun t => { t with status := .waiting ⟨.barrier 2 0 false (some 256) 7, 257, true, 0⟩ })).team.status = .waiting w ∧
      w.kind = .barrier 2 0 false (some 256) 7 ∧ 256 < w.ticks ∧ nextStandsOf barred 0) := by
  refine ⟨⟨_, rfl, rfl, rfl, by decide +kernel, by decide +kernel⟩, ⟨_, rfl, by decide +kernel⟩, ⟨_, rfl, rfl, by decide +kernel⟩,
    ⟨_, rfl, rfl, by decide +kernel⟩, ⟨_, rfl, rfl, by decide +kernel, rfl, nofun⟩, ⟨(okOr (st, 0) ((waitingFor 5 (some 256) 256).waitWord 0 0x1FFFFF000000000 8)).1, ?_, ?_⟩,
    by decide +kernel, ⟨_, rfl, rfl, by decide +kernel, by unfold nextStandsOf; decide +kernel⟩⟩
  · exact (ok_pair (st, 0) _ (by decide +kernel)).trans (congrArg _ (Prod.ext rfl (by decide +kernel)))
  · unfold nextStandsOf; decide +kernel

/-- A load of the doubleword at an address, for s5. -/
def loadAt (a : DWord) : Pending := .load ⟨5, true, .n64, 0, [(0, a)]⟩

/-- The team with open windows. -/
def windowed (l : List WindowResult) : State := operating.mapTeam 0 (fun t => { t with windows := l.map (fun r => ⟨0x1000, 3, r⟩) })

/-- A team with four deferred instructions, a load stream one behind, a starved count and a charged cause. -/
def deferred_ : State :=
  let s := operating.mapTeam 0 (fun t => { t with
    deferred := [⟨0x1000, 5, .value 7⟩, ⟨0x1008, 6, .lmrel 1 (some 1)⟩, ⟨0x1010, 7, .lmrel 2 none⟩]
    starve := 224
    async := [⟨.bufferRevoked, 0x1000, 0, 0, none, 0⟩] })
  s.setRegs { s.regs with q := [(2, .load ⟨0x1000, .n32, 128, 2, 0, [List.replicate 32 0]⟩)] }

theorem witness_TeamStepsActOnTheirTeam :
    ((deferred_.gangAt (deferred_.teamAt 0).gang).state = .resident ∧
      (let s := windowed [.ready [] 0, .pending (loadAt 0x1000)]
       (∃ w, (s.teamAt 0).windows[1]? = some w ∧ w.res = .pending (loadAt 0x1000)) ∧
         (s.teamAt 0).faultedFor 32 1 ((loadAt 0x1000).ranges 32) = none ∧ stands (s.performPending 0 (loadAt 0x1000)) = true) ∧
      (let s := windowed [.pending (loadAt 0x8000)]
       (s.teamAt 0).faultedFor 32 0 ((loadAt 0x8000).ranges 32) = none ∧
         (match s.performPending 0 (loadAt 0x8000) with | .error (.trap _ _ _ true, _) => true | _ => false) = true) ∧
      ((windowed [.faulted (loadAt 0x8000) .pageNotPresent 0x8000, .pending (loadAt 0x8000)]).teamAt 0).faultedFor 32 1 ((loadAt 0x8000).ranges 32) ≠ none) ∧
    ((∃ k, (deferred_.teamAt 0).deferred[0]? = some k ∧ k.op = .value 7) ∧
      (∃ k, (deferred_.teamAt 0).deferred[1]? = some k ∧ k.op = .lmrel 1 (some 1)) ∧
      (∃ k, (deferred_.teamAt 0).deferred[2]? = some k ∧ k.op = .lmrel 2 none) ∧ (∀ c, (deferred_.teamAt 0).status ≠ .ended c)) ∧
    (∃ st s1 x, (deferred_.teamAt 0).regs.q.find 2 = some (.load st) ∧
      ({ st with pos := st.pos + st.ahead.length, ahead := [] } : Stream).done = false ∧
      deferred_.streamRead 0 { st with pos := st.pos + st.ahead.length, ahead := [] } = .ok (s1, x)) ∧
    ((deferred_.teamAt 0).isReady = true ∧ (deferred_.teamAt 0).h = false ∧ 224 ≤ (deferred_.teamAt 0).starve ∧ (st.teamAt 0).starve < 224) ∧
    (∃ a rest, (deferred_.teamAt 0).async = a :: rest ∧ a.cause ≠ .errorConsumed ∧ a.cause ≠ .emulation ∧ a.holds = none ∧
      (deferred_.gangAt (deferred_.teamAt 0).gang).heldFault = none) := by
  refine ⟨⟨?_, ⟨⟨_, rfl, rfl⟩, ?_, ?_⟩, ⟨?_, ?_⟩, ?_⟩, ⟨⟨_, rfl, rfl⟩, ⟨_, rfl, rfl⟩, ⟨_, rfl, rfl⟩, nofun⟩,
    ⟨_, _, _, rfl, by decide +kernel, ok_pair (st, []) _ (by decide +kernel)⟩, ⟨rfl, rfl, ?_, ?_⟩, ⟨_, _, rfl, nofun, nofun, rfl, rfl⟩⟩ <;>
    decide +kernel

/-- A team at its boundary that UIEN = 0x20A lets interrupt 0x61 interrupt. -/
theorem deliverable_second (t : Team) (hs : t.status = .ready) (hp : t.stop = false) (hh : t.h = false) (hu : t.regs.uhandler ≠ 0)
    (hi : t.regs.uien = 0x20A) : deliverable t 0x61 0x200 :=
  ⟨⟨.inl hs, hp⟩, hh, hu, by rw [hi]; decide, .inr (.inl ⟨by simp only [hi]; decide, by simp only [hi]; decide, rfl, rfl⟩)⟩

/-- A seal of the empty slot (22), of an operator (21) and of no slot (4096), a removal, an interrupt that is enabled and pending, a cause that
holds a command. -/
def sealing : State :=
  let s := operating.mapTeam 0 (fun t => { t with
    deferred := [⟨0x1000, 5, .opseal 22⟩, ⟨0x1008, 6, .opseal 4096⟩]
    async := [⟨.bufferRevoked, 0x1000, 0, 0, some (.command 0 3), 0⟩] })
  s.setRegs { s.regs with uhandler := 0x2000, uien := 0x20A }

/-- The same with other instructions deferred. -/
def deferring_ (op : DeferredOp) : State := sealing.mapTeam 0 (fun t => { t with deferred := [⟨0x1000, 5, op⟩] })

theorem witness_TeamStepsActOnTheirTeam_others :
    (sealing.handleFor (sealing.ctxOf 0) 22 = some (2, 6) ∧ ((sealing.sliceAt 2).slot 6).installing = false ∧
      (sealing.teamAt 0).slotBusy 0 2 6 = false ∧ ((sealing.sliceAt 2).slot 6).op = none ∧ ((sealing.sliceAt 2).slot 5).op ≠ none) ∧
    sealing.handleFor (sealing.ctxOf 0) 4096 = none ∧
    (let s := deferring_ (.opuninst 21)
     s.handleFor (s.ctxOf 0) 21 = some (2, 5) ∧ (s.teamAt 0).slotBusy 0 2 5 = false ∧ ((s.sliceAt 2).slot 5).op ≠ none ∧
       (s.removeOperator 2 5).teams = s.teams) ∧
    (let s := sealing.mapTeam 0 (fun t => { t with deferred := [], async := [] })
     deliverable (s.teamAt 0) 0x61 0x200 ∧ (s.teamAt 0).async = [] ∧ (s.gangAt (s.teamAt 0).gang).heldFault = none ∧ s.settle 0 = .ok s ∧
       s.arriveQuiet 0 = .ok s) ∧
    (∀ c ∈ [Cause.errorConsumed, .emulation], ∃ a rest, ((sealing.mapTeam 0 (fun t => { t with async := t.async.map (fun a =>
      { a with cause := c }) })).teamAt 0).async = a :: rest ∧ a.cause = c) ∧
    (∀ x, let s := (deferring_ (.opinst 2 6 x)).mapSlot 2 6 (fun q => { q with installing := true })
      (s.endInstall 2 6).teams = s.teams) ∧
    (∃ a rest h, (sealing.teamAt 0).async = a :: rest ∧ a.cause ≠ .errorConsumed ∧ a.cause ≠ .emulation ∧ a.holds = some h) := by
  refine ⟨⟨?_, ?_, ?_, ?_, ?_⟩, ?_, ⟨?_, ?_, ?_, ?_⟩, ⟨deliverable_second _ rfl rfl rfl (by decide +kernel) rfl, rfl, rfl, rfl, rfl⟩,
    ?_, fun _ => rfl, ⟨_, _, _, rfl, nofun, nofun, rfl⟩⟩
  case refine_11 =>
    intro c hc
    simp only [List.mem_cons, List.not_mem_nil, or_false] at hc
    rcases hc with rfl | rfl <;> exact ⟨_, _, rfl, rfl⟩
  all_goals decide +kernel

/-! ### Witnesses: masks, dual words and the engines of a core -/

theorem witness_DualWordReadsBeforeItWrites : nextStands st ∧ ¬nextStands (atPc st 0x1FFFFEFFFFFFFF8) :=
  ⟨next_stands _ rfl, by unfold nextStands; decide +kernel⟩

theorem witness_MaskInstructionsCompute : nextStands st ∧ (st.tw ≤ 32 ∧ 32 < 1024) ∧ (st.tw ≤ 1023 ∧ 1023 < 1024) :=
  ⟨next_stands _ rfl, by decide +kernel, by decide +kernel⟩

/-- A fill of 8 bytes at 512 of scratchpad. -/
def filling : CopyCmd := .fill 0x1FFFFF000000200 0xABCD 4 8 1 1 0 0

/-- Commands of core 0's scheduler: 1 may start, 2 runs, 3 waits for 1, 4 has performed its payload of 8 bytes. -/
def copyRunning : State :=
  let cmd (n : Nat) (edges : List Nat) (started : Bool) (done : Nat) : Cmd :=
    ⟨n, 0, 0, 0, 0x1000, 0, .copy filling, [], edges, started, false, done, none, ⟨some (1024, 5), some 1⟩⟩
  copying.mapCore 0 (fun k => { k with cmds := [cmd 1 [] false 0, cmd 2 [] true 0, cmd 3 [1] false 0, cmd 4 [] true 8] })

theorem witness_CopyEngineMovesAndCompletes :
    (∃ x, (copyRunning.coreAt 0).command 1 = some x ∧ x.kind = .copy filling ∧ x.started = false ∧ copyRunning.unblocked x = true ∧
      (copyRunning.coreAt 0).copying < 4) ∧
    (∃ x s1 s2 bs, (copyRunning.coreAt 0).command 2 = some x ∧ x.kind = .copy filling ∧ x.started = true ∧ x.stopped = false ∧
      x.progress < filling.bytes ∧ copyRunning.rowSource 0 x filling 0 = .ok (copyRunning, none) ∧
      (copyRunning.mapCore 0 (fun k => k.mapCommand x.id (fun y => { y with rowSrc := none }))).runSource 0 x filling none 0 0 8 = .ok (s1, bs) ∧
      s1.engineWriteMarked (some 0) 0 0 (.command 0 x.id) 0x1FFFFF000000200 bs 0x22 = .ok s2) ∧
    (∃ x, (copyRunning.coreAt 0).command 3 = some x ∧ x.kind = .copy filling ∧ x.started = false ∧ copyRunning.unblocked x = false) ∧
    (∃ d p z n0 n1 n2 a b, filling = .fill d p z n0 n1 n2 a b ∧ windowBase ≤ (filling.rowDest 0).toNat ∧ (filling.rowDest 0).toNat + 8 < 2 ^ 57 ∧
      (filling.rowDest 0).toNat - windowBase + 8 ≤ (copyRunning.gangAt 0).scratch) ∧
    (.barrier 1 ∈ ((copyRunning.mapGang 0 (fun g => { g with badSync := [.barrier 1] })).gangAt 0).badSync ∧
      .barrier 1 ∉ (copyRunning.gangAt 0).badSync) ∧
    (∃ x, (copyRunning.coreAt 0).command 4 = some x ∧ x.kind = .copy filling ∧ x.started = true ∧ filling.bytes ≤ x.progress ∧
      (copyRunning.gangAt x.gang).state = .resident ∧ copyRunning.writesOf (.command 0 4) = false ∧
      (copyRunning.mapSlice 2 (fun c => { c with writes := [⟨.command 0 4, 0, 0, 6, 0, [(0, 1)], []⟩] })).writesOf (.command 0 4) = true) ∧
    (let s := copyRunning.mapCore 0 (fun k => { k with cmds := (k.cmds.take 1) ++ (List.range 4).map (fun n => { idleCmd (n + 5) with kind := .copy filling, started := true }) })
     4 ≤ (s.coreAt 0).copying) := by
  refine ⟨⟨_, rfl, rfl, rfl, by decide +kernel, by decide +kernel⟩,
    ⟨_, _, _, _, rfl, rfl, rfl, rfl, by decide +kernel, rfl, ok_pair (st, []) _ (by decide +kernel), ok_eq st _ (by decide +kernel)⟩,
    ⟨_, rfl, rfl, rfl, by decide +kernel⟩, ⟨_, _, _, _, _, _, _, _, rfl, by decide +kernel, by decide +kernel, by decide +kernel⟩,
    ⟨by decide +kernel, by decide +kernel⟩, ⟨_, rfl, rfl, rfl, by decide +kernel, by decide +kernel, by decide +kernel, by decide +kernel⟩, ?_⟩
  decide +kernel

/-- The engine of core 0 owned by gang 0, with one command at the head of its queue. -/
def queued (m : MatrixCmd) : State :=
  (scr st 65536).mapCore 0 (fun k => { k with engine := .first (some 0), cmds := [⟨1, 0, 0, 0, 0x1000, 0, .matrix m, [], [], false, false, 0, none, ⟨none, none⟩⟩] })

/-- Format blocks: int8, and float8 of code 3 with float4 of code 6, K = 4, which is no native pair. -/
def int8x4 : DWord := 0x0000100000000011
def mixed4 : DWord := 0x0000100000000063

/-- Each kind of command stands at the head of a queue and may start. -/
def starts (m : MatrixCmd) : Bool :=
  match ((queued m).coreAt 0).cmds.find? (fun y => y.isMatrix && !y.started) with
  | some x => decide (x.kind = .matrix m) && (queued m).mayStart 0 x m
  | none => false

theorem starts_eq (m : MatrixCmd) (h : starts m = true) :
    ∃ x, ((queued m).coreAt 0).cmds.find? (fun y => y.isMatrix && !y.started) = some x ∧ x.kind = .matrix m ∧
      (queued m).mayStart 0 x m = true := by
  unfold starts at h
  split at h
  · exact ⟨_, ‹_›, by simpa using h⟩
  · cases h

theorem witness_MatrixEnginePerformsItsQueue :
    starts .accz = true ∧ starts .accadv = true ∧ (starts (.scld 0 8191 1) = true ∧ ((queued (.scld 0 8191 1)).gangAt 0).poisoned 0 2 = false) ∧
    (starts (.epcfg 0x01000000 0 0) = true ∧ (epConfigOf 0x01000000 0).scale = false ∧ (epConfigOf 0x01000000 0).bias = false) ∧
    (starts (.mma .dense int8x4 0 0 256) = true ∧ isNative int8x4 = true ∧
      ((queued .accz).mmaIn 0 (idleCmd 1) .dense int8x4 0 0 256).poisoned = none) ∧
    (starts (.mma .dense mixed4 0 0 256) = true ∧ isNative mixed4 = false) ∧
    ((queued .accz).coreAt 0).engine.emulating = none ∧
    ((queued .accz).mapCore 0 (fun k => { k with engine := { k.engine with states := [(0, .draining)] } })).mayStart 0 (idleCmd 1) .accz = false := by
  decide +kernel

theorem witness_DenseIntegerProductsAccumulate :
    (fmtA int8x4 = 1 ∧ fmtB int8x4 = fmtA int8x4) ∧ (fmtA 0x0000100000000022 = 2 ∧ fmtB 0x0000100000000022 = fmtA 0x0000100000000022) ∧
    (0 < 64 ∧ 63 < 64) ∧ blockK int8x4 = 4 := by decide +kernel

/-- Tile 3 passed with ACCADV 7 and not yet drained. -/
def passed : State :=
  (queued .accz).mapCore 0 (fun k => { k with
    engine := { k.engine with passed := [(3, 7)], states := [(3, .pending)], head := 4, captured := [(3, EpConfig.first)] }
    cmds := k.cmds ++ [⟨7, 0, 0, 0, 0x1000, 0, .matrix .accadv, [], [], true, false, 0, none, ⟨none, none⟩⟩] })

/-- The same tile with every word of its drain placed. -/
def drained : State := passed.mapCore 0 (fun k => { k with engine := { k.engine with drain := some ⟨3, 7, []⟩ } })

/-- An emulated command of the formats in a format block, which hart 2 serves. -/
def emulating (w0 : DWord) : State :=
  ((queued (.mma .dense w0 0 0 256)).mapCore 0 (fun k => { k with
    engine := { k.engine with emulating := some 1 }, cmds := k.cmds.map (fun x => { x with started := true }) })).mapPlatform (fun p =>
      { p with harts := [(2, 0)] })

theorem witness_EpilogueDrainsAndEmulationEnds :
    ((passed.coreAt 0).engine.drain = none ∧ (passed.coreAt 0).engine.passed = [(3, 7)] ∧ (passed.coreAt 0).engine.badTile 3 = false ∧
      ((passed.mapCore 0 (fun k => { k with engine := { k.engine with bad := [4096 * 3 + 5] } })).coreAt 0).engine.badTile 3 = true) ∧
    ((drained.coreAt 0).engine.drain = some ⟨3, 7, []⟩ ∧ (∃ x, (drained.coreAt 0).command 7 = some x ∧ x.stopped = false)) ∧
    (((drained.coreAt 0).engine.capturedCfg 3).toQueue = true ∧ (epConfigOf 0x40 0).toQueue = true ∧ (epConfigOf 0 0).toQueue = false) ∧
    (((emulating mixed4).coreAt 0).engine.emulating = some 1 ∧
      (∃ x, ((emulating mixed4).coreAt 0).command 1 = some x ∧ x.kind = .matrix (.mma .dense mixed4 0 0 256)) ∧ fmtA mixed4 < 7 ∧ fmtB mixed4 < 7) ∧
    ((emulating mixed4).hartServes 0 = true ∧ ((emulating mixed4).mapPlatform (fun p => { p with harts := [] })).hartServes 0 = false) ∧
    ((∃ x, ((emulating 0x0000100000000077).coreAt 0).command 1 = some x ∧ x.kind = .matrix (.mma .dense 0x0000100000000077 0 0 256)) ∧
      7 ≤ fmtA 0x0000100000000077) ∧
    ((mmaSized .dense 0x0000100000000077 0 0 256 2 2).find? (beyondScratch 65536) = none ∧
      (mmaSized .dense 0x0000100000000077 0 0 256 2 80000).find? (beyondScratch 65536) ≠ none ∧
      ({ (queued .accz).mmaIn 0 (idleCmd 1) .dense 0x0000100000000077 0 0 256 with ha := 2, hb := 2 } : MmaIn).poisoned = none ∧
      ({ ((queued .accz).mapGang 0 (fun g => { g with poison := [64] })).mmaIn 0 (idleCmd 1) .dense 0x0000100000000077 0 0 256 with
        ha := 2, hb := 2 } : MmaIn).poisoned ≠ none) := by
  refine ⟨⟨rfl, rfl, ?_, ?_⟩, ⟨rfl, _, rfl, rfl⟩, ⟨?_, ?_, ?_⟩, ⟨rfl, ⟨_, rfl, rfl⟩, ?_, ?_⟩, ⟨?_, ?_⟩, ⟨⟨_, rfl, rfl⟩, ?_⟩, ⟨?_, ?_, ?_, ?_⟩⟩ <;> decide +kernel

/-! ### Witnesses: gangs, packets and completions -/

/-- Doublewords written into the placed page. -/
def placed (l : List (Nat × Nat)) : State :=
  st.mapMem (fun m => { m with dram := l.foldl (fun (d : Memory) p => d.write (0x5000 + p.1) (leBytes 8 p.2)) m.dram })

/-- A ring at 0x1000 whose slot 0 holds a packet, given by its doublewords, and a kernel descriptor at 0x1800. -/
def ring (l : List (Nat × Nat)) : State :=
  (placed (l ++ [(0x1800, 0x1000), (0x1808, 0x400)])).mapHub (fun h => { h with
    queues := [(0, { HostQueue.none with valid := true, ring := 0x1000, kick := 16 })] })

/-- A DISPATCH of the kernel at 0x1800, with `x` gangs, whose signal is at 0x1900. -/
def dispatch (x : Nat) : State :=
  ring [(0x1000, 0x0101), (0x1008, 0x1800), (0x1018, 0x100000000 + x), (0x1020, 1), (0x1030, 0x1900)]

/-- A packet of a type other than DISPATCH. -/
def other (type : Nat) : State := ring [(0x1000, 256 * type + 1), (0x1008, 0x1900), (0x1010, 3), (0x1030, 0x1900)]

/-- The packet that queue 0 reads next. -/
def packet (s : State) : State × List (BitVec 8) :=
  okOr (st, []) ((okOr (st, []) (s.cpRead (s.queueAt 0).ctx (s.queueAt 0).slotVA 8)).1.cpRead (s.queueAt 0).ctx (s.queueAt 0).slotVA 64)

/-- Queue 0 stands at a packet of a type. -/
abbrev ready (s : State) (type : Option Nat) : Prop :=
  s.queueOpen 0 = true ∧ s.outranked 0 = false ∧ stands (s.cpRead (s.queueAt 0).ctx (s.queueAt 0).slotVA 8) = true ∧
    (s.queueAt 0).headerReady (leNat (okOr (st, []) (s.cpRead (s.queueAt 0).ctx (s.queueAt 0).slotVA 8)).2) = true ∧
    headerType (leNat (okOr (st, []) (s.cpRead (s.queueAt 0).ctx (s.queueAt 0).slotVA 8)).2) = type ∧
    stands ((okOr (st, []) (s.cpRead (s.queueAt 0).ctx (s.queueAt 0).slotVA 8)).1.cpRead (s.queueAt 0).ctx (s.queueAt 0).slotVA 64) = true

theorem packet_at {s : State} {type : Option Nat} (h : ready s type) : packetAt s 0 type (packet s).1 (packet s).2 :=
  ⟨_, _, h.1, h.2.1, ok_pair (st, []) _ h.2.2.1, h.2.2.2.1, h.2.2.2.2.1, ok_pair (st, []) _ h.2.2.2.2.2⟩

/-- DISPID written, where there is one. -/
def named (s : State) (dispid : Option Nat) : Res State :=
  match dispid with
  | some d => s.cpWrite (s.queueAt 0).ctx ((s.queueAt 0).slotVA + 56) (leBytes 4 d)
  | none => .ok s

/-- The header written with V = 0. -/
def cleared (s : State) (bs : List (BitVec 8)) (dispid : Option Nat) : Res State :=
  (okOr st (named s dispid)).cpWrite (s.queueAt 0).ctx (s.queueAt 0).slotVA (leBytes 8 (leNat (bs.take 8) - 1))

/-- The packet taken. -/
def taken (s : State) (bs : List (BitVec 8)) (dispid : Option Nat) : State :=
  ((okOr st (cleared s bs dispid)).mapQueue 0 (fun y => { y with readIdx := y.readIdx + 1 })).mapHub (fun h => { h with turns := h.turns.set (cpOf 0) 0 })

theorem takes_it {s : State} {bs : List (BitVec 8)} {dispid : Option Nat}
    (h : stands (named s dispid) = true ∧ stands (cleared s bs dispid) = true) : takes s 0 bs dispid (taken s bs dispid) :=
  ⟨_, _, ok_eq st _ h.1, ok_eq st _ h.2, rfl⟩

/-- The record, the DISPID and the signal of a packet that queue 0 refuses or finds malformed. -/
def told (n : State) (source : Byte) (d : Nat) (c e : Cause) (addr va : DWord) : Res State :=
  (n.addRecord (n.cpRecord 0 source d c 0 addr) false).1.raiseSignal 0 0 va (some e)

theorem witness_CommandProcessorsTakePackets_dispatch :
    let s2 := (packet (dispatch 1)).1
    let bs := (packet (dispatch 1)).2
    packetAt (dispatch 1) 0 (some 1) s2 bs ∧ (s2.queueAt 0).torn = none ∧ s2.freeEntry 0 = some 1 ∧
    dimsMalformed (wordAt bs 24) (wordAt bs 28) (wordAt bs 32) = false ∧ wordAt bs 40 < 2 ^ 20 ∧ (dwordAt bs 8).toNat % 8 = 0 ∧
    ∃ s3 ds shape, s2.cpRead (s2.queueAt 0).ctx (dwordAt bs 8).toNat 16 = .ok (s3, ds) ∧ kernelShape (dwordAt ds 8) = some shape ∧
      (dwordAt ds 0).toNat % 8 = 0 ∧ shape.fits ((wordAt bs 36) / 2 % 2 = 1) = true ∧
      takes s3 0 bs (some s3.freshDisp) (taken s3 bs (some s3.freshDisp)) := by
  let s2 := (packet (dispatch 1)).1
  let bs := (packet (dispatch 1)).2
  let r := okOr (st, []) (s2.cpRead (s2.queueAt 0).ctx (dwordAt bs 8).toNat 16)
  have h : ready (dispatch 1) (some 1) ∧ ((s2.queueAt 0).torn = none ∧ s2.freeEntry 0 = some 1 ∧
      dimsMalformed (wordAt bs 24) (wordAt bs 28) (wordAt bs 32) = false ∧ wordAt bs 40 < 2 ^ 20 ∧ (dwordAt bs 8).toNat % 8 = 0) ∧
      stands (s2.cpRead (s2.queueAt 0).ctx (dwordAt bs 8).toNat 16) = true ∧
      (kernelShape (dwordAt r.2 8) = some ⟨32, 16, 1, 1, false, 0⟩ ∧ (dwordAt r.2 0).toNat % 8 = 0 ∧
        (⟨32, 16, 1, 1, false, 0⟩ : Shape).fits ((wordAt bs 36) / 2 % 2 = 1) = true) ∧
      (stands (named r.1 (some r.1.freshDisp)) = true ∧ stands (cleared r.1 bs (some r.1.freshDisp)) = true) := by decide +kernel
  exact ⟨packet_at h.1, h.2.1.1, h.2.1.2.1, h.2.1.2.2.1, h.2.1.2.2.2.1, h.2.1.2.2.2.2, r.1, r.2, _, ok_pair (st, []) _ h.2.2.1,
    h.2.2.2.1.1, h.2.2.2.1.2.1, h.2.2.2.1.2.2, takes_it h.2.2.2.2⟩

theorem witness_CommandProcessorsTakePackets_refused :
    let s2 := (packet (dispatch 0)).1
    let bs := (packet (dispatch 0)).2
    packetAt (dispatch 0) 0 (some 1) s2 bs ∧ (s2.queueAt 0).torn = none ∧ s2.freeEntry 0 = some 1 ∧
    dimsMalformed (wordAt bs 24) (wordAt bs 28) (wordAt bs 32) = true ∧ takes s2 0 bs (some s2.freshDisp) (taken s2 bs (some s2.freshDisp)) ∧
    stands (told ((taken s2 bs (some s2.freshDisp)).mapHub (fun h => { h with nextDisp := (s2.freshDisp + 1) % 2 ^ 32 })) 4 s2.freshDisp
      .admissionRefused .admissionRefused (dwordAt bs 8) (dwordAt bs 48)) = true := by
  let s2 := (packet (dispatch 0)).1
  let bs := (packet (dispatch 0)).2
  have h : ready (dispatch 0) (some 1) ∧ ((s2.queueAt 0).torn = none ∧ s2.freeEntry 0 = some 1 ∧
      dimsMalformed (wordAt bs 24) (wordAt bs 28) (wordAt bs 32) = true) ∧
      (stands (named s2 (some s2.freshDisp)) = true ∧ stands (cleared s2 bs (some s2.freshDisp)) = true) ∧
      stands (told ((taken s2 bs (some s2.freshDisp)).mapHub (fun h => { h with nextDisp := (s2.freshDisp + 1) % 2 ^ 32 })) 4 s2.freshDisp
        .admissionRefused .admissionRefused (dwordAt bs 8) (dwordAt bs 48)) = true := by decide +kernel
  exact ⟨packet_at h.1, h.2.1.1, h.2.1.2.1, h.2.1.2.2, takes_it h.2.2.1, h.2.2.2⟩

/-- A packet of a type that queue 0 takes. -/
abbrev takeable (s : State) (type : Option Nat) : Prop :=
  ready s type ∧ (((packet s).1.queueAt 0).torn = none ∧ (s.queueAt 0).taken = []) ∧
    (stands (named (packet s).1 none) = true ∧ stands (cleared (packet s).1 (packet s).2 none) = true)

theorem takeable_eq {s : State} {type : Option Nat} (h : takeable s type) :
    packetAt s 0 type (packet s).1 (packet s).2 ∧ ((packet s).1.queueAt 0).torn = none ∧ (s.queueAt 0).taken = [] ∧
      takes (packet s).1 0 (packet s).2 none (taken (packet s).1 (packet s).2 none) :=
  ⟨packet_at h.1, h.2.1.1, h.2.1.2, takes_it h.2.2⟩

theorem witness_CommandProcessorsTakePackets :
    takeable (other 2) (some 2) ∧ takeable (other 3) (some 3) ∧ takeable (other 0) (some 0) ∧
    (takeable (other 4) none ∧
      (let s2 := (packet (other 4)).1
       let bs := (packet (other 4)).2
       stands (told (taken s2 bs none) 3 0 .illegalInstruction .illegalInstruction (BitVec.ofNat 64 (s2.queueAt 0).slotVA) (dwordAt bs 48)) = true)) ∧
    (∀ x ∈ [Taken.signal 0x1900 (some 0), .nop 0x1900], let s := (other 0).mapQueue 0 (fun q => { q with taken := [(3, x)] })
      (s.queueAt 0).taken = (3, x) :: [] ∧ stands ((s.mapQueue 0 (fun q => { q with taken := q.taken.erase 3 })).raiseSignal 0 0 0x1900 none) = true) ∧
    (let r : ContRecord := ⟨0x1000, 0x2000, 0, 0, 0, 0⟩
     let s := (other 0).mapQueue 0 (fun q => { q with conts := [r] })
     (s.queueAt 0).conts = [r] ∧ (s.queueAt 0).valid = true ∧ (s.queueAt 0).suspended = false ∧ s.platform.safe = false ∧ s.outranked 0 = false ∧
       (s.queueAt 0).torn = none ∧ shapeOf r.shape = some ⟨32, 16, 1, 0, false, 0⟩ ∧ s.freeEntry 0 = some 1 ∧
       (⟨32, 16, 1, 0, false, 0⟩ : Shape).fits false = true) := by
  refine ⟨?_, ?_, ?_, ?_, ?_, ?_⟩ <;> decide +kernel

/-- A malformed packet in a queue that has been torn down. -/
def tornDown : State := (other 4).mapQueue 0 (fun q => { q with torn := some .unattributable })

theorem witness_CommandProcessorsTakePackets_torn :
    ready tornDown none ∧ ((packet tornDown).1.queueAt 0).torn = some .unattributable ∧
    (stands (named (packet tornDown).1 none) = true ∧ stands (cleared (packet tornDown).1 (packet tornDown).2 none) = true) ∧
    stands ((taken (packet tornDown).1 (packet tornDown).2 none).raiseSignal 0 0 (dwordAt (packet tornDown).2 48) (some .unattributable)) = true := by
  decide +kernel

/-- Entry 1 of context 0 is a live mapping of the issuing gang's scratchpad onto page 0x1000, whose leaf names it; the snoop filters hold `l`. -/
def mappedLive (l : List SnoopEntry) : State := (((scr st 4096).mapHub (fun h => { h with mappings := [(1, ⟨true, false, 0x1000, 0, 0, 1, 0⟩)] })).mapCore 0
  (fun k => { k with mappings := [(0, 1, 0)] })).mapMem (fun m => { m with dram := m.dram.write 0x5008 (leBytes 8 0x001000000000602F), snoop := l })

/-- Dispatch 1 of two gangs of class W, of which none has started; gang 0 asks for the first, and then for one of a dispatch that has ended. -/
def admitting : State :=
  (st.mapDispatch 1 (fun d => { d with valid := true, entry := 0x1000, shape := 0x800, dimX := 2, dimY := 1, dimZ := 1 })).mapGang 0 (fun g =>
    { g with scratch := 4096, fetches := [⟨64, 1⟩, ⟨128, 5⟩], blocks := [(8192, 4096)] })

/-- The same, with a scratchpad of 512 KiB asked for, which core 0 holds free but in no one block. -/
def scattered : State :=
  (admitting.mapDispatch 1 (fun d => { d with shape := 0x8000000000800 })).mapGang 0 (fun g => { g with blocks := [(8192, 4096), (524288, 4096)] })

/-- Gang 0 with its only team exited, and saved by the scheduler. -/
def gone : State := st.mapTeam 0 (fun t => { t with status := .exited })
def away : State := okOr st (st.saveGang 0 true)

theorem witness_GangsStartMoveAndRetire :
    (let x := admitting.dispatchAt 1
     x.valid = true ∧ x.failed = none ∧ x.next < x.dimX * x.dimY * x.dimZ ∧ admitting.restoreWaits 1 = false ∧
       shapeOf x.shape = some ⟨32, 16, 1, 2, false, 0⟩ ∧ admitting.mappingsFor x.ctx 1 x.next = [] ∧ x.rollback = false ∧
       admitting.placement (admitting.sliceFor x (x.next % x.dimX) (x.next / x.dimX % x.dimY) (x.next / x.dimX / x.dimY)) x.mark
         (fun c => admitting.roomOn c ⟨32, 16, 1, 2, false, 0⟩ x.rollback (admitting.mappingsFor x.ctx 1 x.next).length) = some (1, [(0, 4096)]) ∧
       (let s := admitting.mapPlatform (fun p => { p with safe := true })
        s.placement (s.sliceFor x 0 0 0) x.mark (fun c => s.roomOn c ⟨32, 16, 1, 2, false, 0⟩ false 0) = none)) ∧
    (st.mayRetire 0 = false ∧ gone.mayRetire 0 = true) ∧
    stands (admitting.claimFor 1 (admitting.dispatchAt 1).ctx 1 0 0 [(0, 4096)]) = true ∧
    (admitting.waitingFor 0 = [] ∧ (match scattered.compaction 0 with
      | some ms => stands (scattered.claimBlocks 0 (ms.map (fun m => (m.2.2.1, m.2.2.2))))
      | none => false) = true) ∧
    ((st.mapTeam 0 (fun t => { t with async := [⟨.bufferRevoked, 0x1000, 0, 0, none, 0⟩] })).mayPreempt 0 = false ∧ st.mayPreempt 0 = true ∧
      stands (st.saveGang 0 true) = true) ∧
    (∃ i, away.hub.images.find? (fun k => k.id = st.hub.nextImage && (k.byScheduler || k.accepted)) = some i ∧ (away.gangAt i.gang).state = .saved ∧
      away.edgesPending i = false ∧
      ∃ core blocks, away.placement (away.sliceFor (away.dispatchAt 0) 0 0 0) (away.dispatchAt 0).mark (away.restoreRoom i) = some (core, blocks) ∧
        stands (away.claimFor core (away.dispatchAt 0).ctx 0 0 0 blocks) = true) ∧
    (∃ s1 n, st.acceptImage (fun k => st.cpRead 0 0x1000 k) = .ok (s1, n)) ∧
    ((admitting.gangAt 0).fetches = ⟨64, 1⟩ :: [⟨128, 5⟩] ∧ (admitting.gangAt 0).state = .resident ∧ (admitting.dispatchAt 5).valid = false) := by
  refine ⟨⟨?_, ?_, ?_, ?_, ?_, ?_, ?_, ?_, ?_⟩, ⟨?_, ?_⟩, ?_, ⟨?_, ?_⟩, ⟨?_, ?_, ?_⟩,
    ⟨okOr ⟨0, 0, none, [], [], [], false, false, none⟩ ((away.hub.images.head?).elim (.error ()) .ok), ?_, ?_, ?_, 0, [(0, 32768)], ?_, ?_⟩,
    ⟨_, _, ok_pair (st, 0) _ ?_⟩, ⟨?_, ?_, ?_⟩⟩ <;> decide +kernel

/-- Entry 1 maps the scratchpad of gang 0 of dispatch 0, or of dispatch 1; the host holds a line of its page. -/
def mappedFor (d : Nat) : State :=
  (mappedLive [⟨0, 192, true, false⟩]).mapHub (fun h => { h with mappings := [(1, ⟨true, false, 0x1000, d, 0, 1, 0⟩)] })

theorem witness_GangsStartMoveAndRetire_waits :
    (∃ s0, gone.unmapGang 0 = .ok s0) ∧
    (let s := (mappedFor 0).mapTeam 0 (fun t => { t with status := .exited })
     s.mayRetire 0 = true ∧ ∃ r s0, s.unmapGang 0 = .error (.wait r, s0)) ∧
    (∀ d ∈ [0, 1], ∃ r s1, (mappedFor d).claimFor 1 0 d 0 4096 [(0, 4096)] = .error (.wait r, s1)) := by
  refine ⟨⟨_, ok_eq st _ ?_⟩, ⟨?_, none, _, stop_eq _ _ ?_⟩, ?_⟩
  case refine_4 =>
    intro d hd
    simp only [List.mem_cons, List.not_mem_nil, or_false] at hd
    rcases hd with rfl | rfl <;> exact ⟨none, _, stop_eq _ _ (by decide +kernel)⟩
  all_goals decide +kernel

/-- Queue 0 waits for a count of 3 at 0x1908, where `v` stands, past its first `n` ticks. -/
def awaiting (v n : Nat) : State := (placed [(0x1908, v)]).mapHub (fun h => { h with
  queues := [(0, { HostQueue.none with valid := true, ring := 0x1000, watchdog := 100, wait := some ⟨0x1908, 3, 0x1900, n, false⟩ })] })

/-- The queue goes on, and its WAIT's own signal is raised. -/
def onwards (s : State) (err : Option Cause) : Res State :=
  ((s.mapQueue 0 (fun x => { x with wait := none })).mapHub (fun h => h.release (fun y => y ≠ .waitPacket 0))).raiseSignal 0 0 0x1900 err

/-- Dispatch 0 with its gang retired and no signal; a record waits for function 0, whose ring's slot 16 is free; gang 3 of dispatch 0 has been
sampled and has retired on core 0. -/
def completing : State :=
  ((st.mapDispatch 0 (fun d => { d with live := 0 })).mapHub (fun h => { h with
    records := [⟨0, 1, 0, 3, .unattributable, 0, 0, 0, 0, 0, 0, 0⟩]
    fns := h.fns.update 0 (fun f => { f with fring := 0x1000, slot := 16 }) }))

def audited_ : State := (st.mapDispatch 0 (fun d => { d with audits := [3] })).mapGang 5 (fun g => { g with glin := 3, audit := 7 })

/-- The replay of gang 3 on core 191, whose one team has exited, with a signature. -/
def replayed (audit : BitVec 64) : State := ((audited_.startReplay { Gang.none with glin := 3, audit := 7 } 191 []).mapGang audited_.hub.nextGang (fun g =>
  { g with audit := audit })).mapTeam (16 * audited_.hub.nextGang) (fun t => { t with status := .exited })

theorem witness_CompletionsRaiseSignalsAndRecords_replay :
    (audited_.replayOf 0 3 = none ∧ (audited_.roomOn 191 ({ Gang.none with glin := 3, audit := 7 } : Gang).shape false 0).isSome = true ∧
      stands (audited_.claimFor 191 (audited_.dispatchAt 0).ctx 0 3 0 []) = true) ∧
    (∀ a ∈ [(7 : BitVec 64), 8], ((replayed a).retiredGang 0 3).map (fun g => g.audit) = some 7 ∧
      ((replayed a).dispatchAt 0).valid = true ∧ ((replayed a).dispatchAt 0).audits.contains 3 = true ∧
      (replayed a).replayOf 0 3 = some audited_.hub.nextGang ∧ ((replayed a).gangAt audited_.hub.nextGang).core = 191 ∧
      (replayed a).replayDone audited_.hub.nextGang = true ∧ ((replayed a).gangAt audited_.hub.nextGang).audit = a ∧
      ((replayed a).gangAt audited_.hub.nextGang).nteams ≤ 16) := by
  refine ⟨⟨?_, ?_, ?_⟩, ?_⟩
  case refine_4 =>
    intro a ha
    simp only [List.mem_cons, List.not_mem_nil, or_false] at ha
    rcases ha with rfl | rfl <;> refine ⟨?_, ?_, ?_, ?_, ?_, ?_, ?_, ?_⟩ <;> decide +kernel
  all_goals decide +kernel

theorem witness_CompletionsRaiseSignalsAndRecords :
    ((completing.dispatchAt 0).finished = true ∧ completing.writesPending 0 = false ∧
      (∃ s1, completing.flushContext 0 ((completing.cores.map (fun p => p.2.l1.length)).sum + 1) = (s1, none) ∧
        stands (s1.raiseSignal 0 0 (completing.dispatchAt 0).signal none) = true) ∧ (st.dispatchAt 0).finished = false) ∧
    (∀ v ∈ [2 ^ 63, 3, 2], ∃ w s1 bs, ((awaiting v 99).queueAt 0).wait = some w ∧ w.held = false ∧ w.awaited.toNat % 8 = 0 ∧
      (awaiting v 99).cpRead ((awaiting v 99).queueAt 0).ctx w.awaited.toNat 8 = .ok (s1, bs) ∧ leNat bs = v ∧
      stands (onwards s1 none) = true ∧ stands (onwards s1 (some .watchdogExpiry)) = true ∧ w.ticks ≤ ((awaiting v 99).queueAt 0).limit) ∧
    (((awaiting 2 101).queueAt 0).limit < 101 ∧ ((awaiting 2 100).queueAt 0).limit = 100 ∧
      stands (onwards (awaiting 2 101) (some .watchdogExpiry)) = true) ∧
    ((0x8000000000000000 : DWord).getLsbD 63 = true ∧ (0 : DWord).getLsbD 63 = false) ∧
    (∃ r s1 hb s2, completing.ringContext 0 = some 0 ∧ completing.hub.records.findIdx? (fun r => r.fn = 0) = some 0 ∧
      completing.hub.records[0]? = some r ∧ completing.cpRead 0 0x1400 8 = .ok (s1, hb) ∧ leNat hb % 2 = 0 ∧
      s1.cpWrite 0 0x1408 (r.bytes.drop 8) = .ok s2 ∧ stands (s2.cpWrite 0 0x1400 (r.bytes.take 8)) = true) ∧
    ((audited_.dispatchAt 0).valid = true ∧ (audited_.dispatchAt 0).audits.contains 3 = true ∧
      (∃ g, audited_.retiredGang 0 3 = some g ∧ g.audit = 7 ∧ 191 / 48 ≠ g.core / 48)) ∧ st.hub.records.length < 4096 := by
  refine ⟨⟨?_, ?_, ⟨(completing.flushContext 0 1).1, Prod.ext rfl ?_, ?_⟩, ?_⟩, ?_, ⟨?_, ?_, ?_⟩, ⟨?_, ?_⟩,
    ⟨⟨0, 1, 0, 3, .unattributable, 0, 0, 0, 0, 0, 0, 0⟩, _, _, _, ?_, ?_, ?_, ok_pair (st, []) _ ?_, ?_, ok_eq st _ ?_, ?_⟩,
    ⟨?_, ?_, ⟨{ Gang.none with glin := 3, audit := 7 }, ?_, ?_, ?_⟩⟩, ?_⟩
  case refine_6 =>
    intro v hv
    simp only [List.mem_cons, List.not_mem_nil, or_false] at hv
    rcases hv with rfl | rfl | rfl <;>
      exact ⟨⟨0x1908, 3, 0x1900, 99, false⟩, _, _, by decide +kernel, rfl, by decide +kernel, ok_pair (st, []) _ (by decide +kernel),
        by decide +kernel, by decide +kernel, by decide +kernel, by decide +kernel⟩
  all_goals decide +kernel

/-! ### Witnesses: translation, coherence and the host -/

/-- The placed page of home 3, which no slice caches. -/
def uncached : State := st.mapMem (fun m => { m with dram := m.dram.write 0x5008 (leBytes 8 0x603F) })

theorem witness_TranslationsAreRememberedAndInvalidated :
    (∃ s1 l pa, st.translate ⟨some 1, none⟩ 0 0x1000 .read 0 = .ok (s1, l, pa) ∧ s1.neverCached 0 l pa = false) ∧
    (∃ s1 l pa, uncached.translate ⟨some 1, none⟩ 0 0x1000 .read 0 = .ok (s1, l, pa) ∧ s1.neverCached 0 l pa = true) ∧
    (∃ c p acc b s1, st.translate ⟨some 1, none⟩ 0 0x3000 .read 0 = .error (.trap c p acc b, s1)) ∧
    (∃ q s1, (st.mapMem (fun m => { m with snoop := [⟨0, 160, true, false⟩] })).translate ⟨some 1, none⟩ 0 0x1000 .read 0 = .error (.wait q, s1)) ∧
    (let s := st.mapHub (fun h => { h with invs := [⟨2, some (0, some (0x1000, 16)), .fn 0⟩] })
     (∃ v, s.invAt 2 = some v) ∧ (∀ w ∈ s.hub.invs, s.inFlight w.scope = false) ∧
       (s.mapSlice 2 (fun c => { c with writes := [⟨.other, 0, 0x1000, 6, 0, [(0, 1)], []⟩] })).inFlight (some (0, some (0x1000, 16))) = true) := by
  refine ⟨⟨_, _, _, ok_triple (st, ⟨0, 0, false, false, 0, 0, 0, 0, false⟩, 0) _ ?_, ?_⟩, ⟨_, _, _, ok_triple (st, ⟨0, 0, false, false, 0, 0, 0, 0, false⟩, 0) _ ?_, ?_⟩, ⟨_, _, _, _, _, rfl⟩,
    ⟨none, _, stop_eq _ _ ?_⟩, ⟨_, rfl⟩, ?_, ?_⟩ <;> decide +kernel

/-- A dirty line whose page is no longer mapped. -/
def orphaned : State :=
  ((dirtied.mapMem (fun m => { m with dram := [] })).mapCore 0 (fun k => { k with tlb := [] })).mapHub (fun h => { h with dieTlb := [] })

/-- A dirty line of host bias that the host holds modified. -/
def hostHeld : State := (dirtied.mapHub (fun h => { h with bias := [(0, ⟨true, true, false, false⟩)] })).mapMem (fun m =>
  { m with snoop := [⟨3, 192, true, false⟩] })

/-- Line 192 of physical memory, whose home is slice 3: slice 27 owns word 0 dirty, slice 51 shares the line. -/
def shared (msgs : List CohMsg) : State := st.mapMem (fun m => { m with
  copies := [(128 * 192 + 27, ⟨1, 1, [(0, 9)], false, 0, 1⟩), (128 * 192 + 51, ⟨3, 0, [(0, 5), (1, 6)], false, 0, 1⟩)]
  dir := [(192, ⟨.o, [(0, 27)], 4⟩)], msgs := msgs.map (fun x => (192, x)) })

theorem witness_CoherenceMessagesMoveLines :
    (((st.coreAt 0).line 192 = none) ∧ (∃ l s1, (dirtied.coreAt 0).line 192 = some l ∧ dirtied.writeBackLine 0 l 0x02 = .ok s1) ∧
      (match (orphaned.coreAt 0).line 192 with
        | some l => (match orphaned.writeBackLine 0 l 0x02 with | .error (.trap _ _ _ _, _) => true | _ => false)
        | none => false) = true ∧
      (match (hostHeld.coreAt 0).line 192 with
        | some l => (match hostHeld.writeBackLine 0 l 0x02 with | .error (.wait _, _) => true | _ => false)
        | none => false) = true) ∧
    (((shared []).mem.copy 192 51).dirty = 0 ∧ ((shared []).mem.copy 192 27).dirty ≠ 0) ∧
    (((shared []).mem.copy 192 27).dirty.getLsbD 0 = true ∧ (shared []).mem.holder (32 * 192 + 0) = some 27 ∧
      ((shared []).mem.dirAt 192).owners.find 0 = some 27 ∧ (∀ p ∈ ((shared []).mem.dirAt 192).owners, p.2 < 128) ∧
      ∀ q, q % 128 ≠ 27 % 128 → ((shared []).mem.copy 192 q).dirty.getLsbD 0 = false) ∧
    (isProxy 75 192 = true ∧ (shared []).mem.msgs.contains (192, .ownership 75 1) = false ∧ (shared []).mem.msgs.contains (192, .shared 75) = false) ∧
    ((shared [.shared 75]).mem.request 192 = some (.shared 75) ∧
      ((shared [.shared 75]).mem.dirAt 192).others 75 0xFFFFFFFF = [27] ∧
      ((shared [.shared 75]).mem.dirAt 192).others 27 0xFFFFFFFF = []) ∧
    ((shared [.ownership 75 1]).mem.request 192 = some (.ownership 75 1) ∧ ((shared []).mem.dirAt 192).others 75 1 = [27] ∧
      (shared []).mem.sharersOf 192 75 = [51]) ∧
    ((shared [.forwardAck 27]).mem.message 192 (fun x => match x with | .forwardAck _ => true | _ => false) = some (.forwardAck 27)) ∧
    ((shared [.invalidate 51]).mem.message 192 (fun x => match x with | .invalidate _ => true | _ => false) = some (.invalidate 51)) ∧
    ((shared [.forwardRead 75 27]).mem.message 192 (fun x => match x with | .forwardRead _ _ => true | .forwardOwn _ _ _ => true | _ => false) =
      some (.forwardRead 75 27)) := by
  refine ⟨⟨?_, ⟨((dirtied.coreAt 0).line 192).getD ⟨0, 0, 0, 0, 0, [], false, 0, 0, 0, 0⟩, _, ?_, ok_eq st _ ?_⟩, ?_, ?_⟩, ⟨?_, ?_⟩, ⟨?_, ?_, ?_, ?_, ?clean⟩, ⟨?_, ?_, ?_⟩, ⟨?_, ?_, ?_⟩,
    ⟨?_, ?_, ?_⟩, ?_, ?_, ?_⟩
  case clean =>
    intro q hq
    have h : ∀ r < 128, r ≠ 27 → ((shared []).mem.copy 192 r).dirty.getLsbD 0 = false := by decide +kernel
    simpa [Mem.copy, copyKey] using h (q % 128) (Nat.mod_lt _ (by decide)) hq
  all_goals decide +kernel

/-- The first 2 MiB exposed; the host holds line 192 modified, and a back-invalidate of it is out. -/
def exposed : State := (st.mapHub (fun h => { h with bias := [(0, ⟨true, false, false, false⟩), (1, ⟨true, false, true, true⟩)] })).mapMem (fun m =>
  { m with snoop := [⟨3, 192, true, true⟩, ⟨3, 193, false, true⟩, ⟨3, 194, false, false⟩] })

/-- The device asks for host line 2^44, the first, owned; an atomic of the team waits for the host. -/
def hosted (viaCache : Bool) : State :=
  (st.mapMem (fun m => { m with requests := [⟨0x100000000000, true⟩] })).mapTeam 0 (fun t => { t with
    status := .atomicOp ⟨0x201, at64 4, [⟨[0], 0x1000, .home 0x8000000000000 true⟩], [], [], viaCache, 0, none⟩ })

theorem no_atomics (s : State) (h : s.teams.all (fun p => p.2.status = .ready) = true) : ∀ p ∈ s.teams, ∀ w, p.2.status ≠ .atomicOp w := by
  intro p hp w hw
  simp only [List.all_eq_true, decide_eq_true_eq] at h
  simp [h p hp] at hw

theorem none_waits (s : State) (hp : s.port.waiting = []) (hc : s.net.conns = []) (hm : s.cores.all (fun p => p.2.mappings.isEmpty) = true)
    (h : s.teams.all (fun p => p.2.status = .ready) = true) : nothingWaits s := by
  refine ⟨hp, hc, ?_, no_atomics s h⟩
  intro p hp m hm'
  simp only [List.all_eq_true, List.isEmpty_iff] at hm
  simp [hm p hp] at hm'

/-- An apply window of slot 7 in slice 2 at granule 4, exposed to the host. -/
def windowed_ : State := (operating.mapSlot 2 7 (fun q => { q with applyFirst := 4 })).mapHub (fun h => { h with bias := [(0, ⟨true, false, false, false⟩)] })

theorem witness_HostAccessesAreAnswered :
    (hostReaches exposed 0x607C 8 ∧ (∀ l ∈ linesOf 0x607C 8, (exposed.biasAt (l / 16384)).host = false) ∧ rangeOf 0x607C = .dram ∧ (8 = 4 ∨ 8 = 8) ∧
      0x6000 % 8 = 0 ∧ rangeOf 0x6000 ≠ .hub ∧ exposed.hostMayAccess 0x6000 8 = true ∧ exposed.flipping 0x6000 8 = false ∧ exposed.windowAt 0x6000 = none) ∧
    (rangeOf 0x8000000000000 = .host ∧ ∀ l ∈ linesOf 0x8000000000000 64, exposed.mem.grant l = none) ∧
    (rangeOf 0x4000 = .dram ∧ windowed_.hostMayAccess 0x4000 4 = true ∧ windowed_.flipping 0x4000 4 = false ∧ lineRuns 0x4000 4 = [(0, 4)] ∧
      windowed_.windowAt 0x4000 = some (2, 7, true, 0) ∧ ∃ o, windowed_.hostOperator 0 2 7 = some o ∧ 0 * 4096 + 0x4000 % 4096 + 4 ≤ o.s * o.astride) ∧
    (exposed.hostMayAccess 0x400000 8 = false ∧ exposed.hostMayAccess 0x200000 8 = true ∧ exposed.flipping 0x200000 8 = true) ∧
    ((∃ e, exposed.mem.snoopOf 194 = some e ∧ e.invalidating = false) ∧
      (∃ e, exposed.mem.snoopOf 193 = some e ∧ e.invalidating = true ∧ e.modified = false) ∧
      (∃ e, exposed.mem.snoopOf 192 = some e ∧ e.invalidating = true ∧ e.modified = true) ∧ (exposed.mem.dirAt 192).owners.find 31 = none ∧
      nothingWaits exposed) ∧
    (exposed.platform.safe = false ∧ rangeOf (128 * 0x100000000000) = .host ∧ (st.mem.setGrant 0x100000000000 (some true)).grant 0x100000000000 = some true) ∧
    ((hosted false).mem.requests.any (fun r => r.line = 0x100000000000) = true ∧ (hosted false).mem.grant 0x100000000000 = none ∧
      (hosted false).platform.safe = false ∧ nothingWaits ((hosted false).setTeamAt 0 placedTeam)) ∧
    (mapped 0 0xFFFFFFF8 8 ∧ ¬mapped 0 0xFFFFFFF8 16 ∧ mapped 63 0x3FFF8 8 ∧ ¬mapped 63 0x3FFF8 16 ∧ ¬mapped 63 0x40000 8 ∧
      ¬mapped 64 0x40000 8 ∧ rangeOf 0x400000 ≠ .hub ∧ rangeOf 0x400000 ≠ .host ∧
      (exposed.mapPlatform (fun p => { p with safe := true })).platform.safe = true) ∧
    (∀ v ∈ [false, true], ∃ w g, ((hosted v).teamAt 0).status = .atomicOp w ∧ w.groups = g :: [] ∧ w.ending = none ∧ w.viaCache = v ∧ w.op = 0x201 ∧
      g.place = .home 0x8000000000000 true ∧ nextStandsOf (hosted v) 0 ∧ rangeOf (128 * (0x8000000000000 / 128)) = .host) ∧
    (let s := (hosted false).mapHub (fun h => { h with ctxs := h.ctxs.update 0 (fun c => { c with vfid := 1 }) })
     s.fnOf (s.ctxOf 0) ≠ 0) := by
  refine ⟨⟨?_, ?_, ?_, ?_, ?_, ?_, ?_, ?_, ?_⟩, ⟨?_, ?_⟩, ⟨?_, ?_, ?_, ?_, ?_, _, rfl, ?_⟩, ⟨?_, ?_, ?_⟩,
    ⟨⟨_, rfl, rfl⟩, ⟨_, rfl, rfl, rfl⟩, ⟨_, rfl, rfl, rfl⟩, rfl, none_waits _ ?_ ?_ ?_ ?_⟩, ⟨?_, ?_, ?_⟩,
    ⟨?_, ?_, ?_, none_waits _ ?_ ?_ ?_ ?_⟩, by unfold mapped; decide +kernel, ?hosts, ?_⟩
  case refine_1 => unfold hostReaches; decide +kernel
  case hosts =>
    intro v hv
    simp only [List.mem_cons, List.not_mem_nil, or_false] at hv
    rcases hv with rfl | rfl <;> exact ⟨_, _, rfl, rfl, rfl, rfl, rfl, rfl, by unfold nextStandsOf; decide +kernel, by decide +kernel⟩
  all_goals decide +kernel

/-! ### Witnesses: slices, the network, management and the platform -/

theorem witness_LoamCommandsComputeEveryLane :
    let f (n : Nat) : Field := ⟨n, 8, true⟩
    let b : Bed := ⟨1, 0, 0, [(8, 1), (16, 3)], [], false⟩
    (∀ op ∈ [LoamOp.add (f 0) (f 8) (.const (-3)), .sub (f 0) (f 8) (.field (f 16)), .mul (f 0) (f 8) (.field (f 16)), .logic 3 (f 0) (f 8) (.field (f 8)),
      .cmp 2 ⟨0, 1, false⟩ (f 8) (.field (f 16)), .mm true (f 0) (f 8) (.field (f 16)), .shift 2 (f 0) (f 8) 1, .red 0 (f 0) (f 8) 13,
      .matches ⟨0, 1, false⟩ (f 8) 1, .count (f 0) (f 16)], ∃ d n, loamLane op b 0 = some (d, n) ∧ d.start = 0) ∧
    (⟨0, .add (f 0) (f 8) (.const 1), none⟩ : LoamCmd).mask = none ∧ 0 < b.lanes ∧ 16383 < b.lanes ∧ (500 < 0 ∨ 0 + 8 ≤ 500) := by
  refine ⟨?_, rfl, by decide +kernel, by decide +kernel, by decide⟩
  intro op hop
  simp only [List.mem_cons, List.not_mem_nil, or_false] at hop
  rcases hop with rfl | rfl | rfl | rfl | rfl | rfl | rfl | rfl | rfl | rfl <;> exact ⟨_, _, rfl, rfl⟩

/-- Writes to slot 7 of slice 2, of two FP16 elements and one vector slot: the first does not complete a fill, the second does, the third follows
them; slot 6 holds no operator; a fill waits to fire. -/
def applying : State :=
  let w (slot off n : Nat) (u : Nat) : ApplyWrite := ⟨.team u, 0, 0x8000, slot, off, (List.range n).map (fun i => (i, 1)), []⟩
  operating.mapSlice 2 (fun c => { c with writes := [w 7 2 2 0, w 7 0 4 1, w 7 0 2 0, w 6 0 2 0], fires := [⟨7, 0, [], 0, false, 0⟩] })

/-- A loam command of core 0 for bed 7 of slice 95: it waits in its scheduler, or it has arrived. -/
def atBed (op : LoamOp) (started : Bool) (edges : List Nat) : State :=
  (bound_.mapCore 0 (fun k => { k with cmds := [⟨1, 0, 0, 0, 0x1000, 0, .loam ⟨0x482FF, op, none⟩, [], edges, started, false, 0, none, ⟨none, none⟩⟩] })).mapSlice 95
    (fun c => { c with queue := if started then [(0, 1)] else [] })

/-- The command of `atBed`. -/
def bedCmd (op : LoamOp) (started : Bool) (edges : List Nat) : Cmd :=
  ⟨1, 0, 0, 0, 0x1000, 0, .loam ⟨0x482FF, op, none⟩, [], edges, started, false, 0, none, ⟨none, none⟩⟩

theorem witness_SlicesApplyFireAndPerform :
    (∃ w, (applying.sliceAt 2).writes[0]? = some w ∧ applying.mayApply 2 0 = true ∧
      (∀ conn, w.writer ≠ .packet conn) ∧ ∃ o, ((applying.sliceAt 2).slot w.slot).op = some o ∧ o.completes w = false) ∧
    (let s := applying.mapSlice 2 (fun c => { c with writes := [⟨.packet 4095, 0, 0x8000, 7, 0, [(0, 1)], []⟩] })
     (∃ w, (s.sliceAt 2).writes[0]? = some w ∧ w.writer = .packet 4095) ∧ s.mayApply 2 0 = true) ∧
    (∃ w, (applying.sliceAt 2).writes[1]? = some w ∧ applying.mayApply 2 1 = true ∧
      ∃ o, ((applying.sliceAt 2).slot w.slot).op = some o ∧ o.completes w = true) ∧
    ((∃ w, (applying.sliceAt 2).writes[2]? = some w) ∧ applying.mayApply 2 2 = false) ∧
    (∃ w, (applying.sliceAt 2).writes[3]? = some w ∧ applying.mayApply 2 3 = true ∧ ((applying.sliceAt 2).slot w.slot).op = none) ∧
    (∃ f o, (applying.sliceAt 2).fires = f :: [] ∧ ((applying.sliceAt 2).slot f.slot).op = some o ∧ f.poisoned = false ∧ o.poisoned = false) ∧
    ((let s := operating.mapSlot 2 7 (fun q => { q with installing := true })
      ((s.sliceAt 2).slot 7).installing = true) ∧ ((operating.sliceAt 2).slot 7).installing = false ∧ ((operating.sliceAt 2).slot 7).valid = true ∧
      ((operating.sliceAt 2).slot 7).op ≠ none ∧ ((operating.sliceAt 2).slot 6).op = none) ∧
    (let d : Field := ⟨0, 8, false⟩
     let s (op : LoamOp) := (atBed op true []).mapSlice 95 (fun c => { c with running := some (0, 1) })
     (∀ op ∈ [LoamOp.count d d, .done 0 5, .lmin d 0 1 0x1000, .lmout d 0 1 0x1000], ((s op).coreAt 0).command 1 = some (bedCmd op true []) ∧
       (s op).nextLoam 95 = some (0, 1)) ∧ computes (.count d d) = true ∧
     (((s (.lmin d 0 1 0x1000)).lminRun 0 (bedCmd (.lmin d 0 1 0x1000) true []) ⟨0x482FF, .lmin d 0 1 0x1000, none⟩ d 0 1 0x1000).coreAt 0).command 1 =
       some { bedCmd (.lmin d 0 1 0x1000) true [] with progress := 1 } ∧
     (((s (.lmout d 0 1 0x1000)).lmoutRun 0 (bedCmd (.lmout d 0 1 0x1000) true []) ⟨0x482FF, .lmout d 0 1 0x1000, none⟩ d 0 1 0x1000).coreAt 0).command 1 =
       some { bedCmd (.lmout d 0 1 0x1000) true [] with progress := 1 } ∧
     (LoamCmd.place ⟨0x482FF, .count d d, none⟩).1 = 95 ∧
     (atBed (.count d d) false [9]).unblocked (bedCmd (.count d d) false [9]) = true ∧
     ((let t := (atBed (.count d d) false [9]).mapCore 0 (fun k => { k with cmds := k.cmds ++ [idleCmd 9] })
       t.unblocked (bedCmd (.count d d) false [9])) = false) ∧
     (let s := atBed (.release 0 5) false []
      s.unblocked (bedCmd (.release 0 5) false []) = true ∧ (s.bedQueue 95 7).length < 64 ∧ (s.bedOf 0 0x482FF).isSome = true ∧
      (s.mapSlice 95 (fun c => { c with beds := [] })).bedOf 0 0x482FF = none) ∧
     (let s := atBed (.release 0 5) true []
      s.nextLoam 95 = some (0, 1) ∧ (s.endLoam 0 (bedCmd (.release 0 5) true []) ⟨0x482FF, .release 0 5, none⟩).bedAt 0 0x482FF = some (95, 7))) ∧
    (let d : Field := ⟨0, 8, false⟩
     let s := atBed (.lmin d 0 1 0x1000) true []
     runElements 0x1000 d.elemSize 0 1 (s.gangAt 0).scratch = 1 ∧ ∃ s1 bs b, s.engineReadMarked 0 0 0 0x1000 1 0x21 = .ok (s1, bs) ∧ (s1.sliceAt 95).beds.find 7 = some b) ∧
    (∃ b, (bound_.sliceAt 95).beds.find 7 = some b ∧ bound_.releasing b.ctx (b.handle 95 7) = false ∧ b.dying = false ∧ bound_.bedCommands 95 7 = [] ∧
      ((atBed (.release 0 5) true []).sliceAt 95).beds.find 7 = some b ∧
      (atBed (.release 0 5) true []).releasing b.ctx (b.handle 95 7) = true) := by
  refine ⟨⟨_, rfl, by decide +kernel, nofun, _, rfl, by decide +kernel⟩, ⟨⟨_, rfl, rfl⟩, by decide +kernel⟩,
    ⟨_, rfl, by decide +kernel, _, rfl, by decide +kernel⟩, ⟨⟨_, rfl⟩, by decide +kernel⟩,
    ⟨_, rfl, by decide +kernel, rfl⟩, ⟨_, _, rfl, rfl, rfl, rfl⟩, ?_, ?_, ⟨?_, ?_⟩, ⟨_, rfl, ?_, rfl, ?_, rfl, ?_⟩⟩
  case refine_4 => exact ⟨_, _, ⟨0x80, 0, 4, [], [], false⟩, ok_pair (st, []) _ (by decide +kernel), by decide +kernel⟩
  all_goals decide +kernel

/-- A command of the network engine at the head of core 0's queue. -/
def netCmd (kind : NetKind) (threshold : Nat) : NetCmd := ⟨0, 0, 0, 0x1000, kind, 0x1000, 0, 64, 4095, 3, 4095, threshold, some (4, 5)⟩

/-- Connection 4095 open, with buffer 3 registered, and the command; buffer 3 is revoked after packet `upTo`, a send waits for its
acknowledgement, and counter 4095 stands at 8. -/
def sending (kind : NetKind) (threshold : Nat) (k : Conn → Conn) : State :=
  ((networking.mapCore 0 (fun c => { c with netq := [netCmd kind threshold] })).mapConn 4095 (fun c => k { c with
    isOpen := true, buffers := [(3, ⟨0x1000, 64, 4095, 0⟩)] })).setCounter 4095 8

theorem witness_NetworkStepsMovePackets :
    (let s := sending .npost 0 (fun k => { k with buffers := [] })
     (s.coreAt 0).netq = netCmd .npost 0 :: [] ∧ (s.connAt 4095).failed = false ∧ (s.connAt 4095).revocations = [] ∧ (s.connAt 4095).buffers.find 3 = none) ∧
    (let s := sending .npost 0 id
     (s.coreAt 0).netq = netCmd .npost 0 :: [] ∧ (s.connAt 4095).failed = false ∧ (s.connAt 4095).revocations = [] ∧ (s.connAt 4095).buffers.find 3 ≠ none) ∧
    (let s := sending .nunpost 0 id
     (s.coreAt 0).netq = netCmd .nunpost 0 :: [] ∧ (s.connAt 4095).failed = false ∧ ∃ b, (s.connAt 4095).buffers.find 3 = some b) ∧
    (let s := sending .nsend 0 id
     (s.coreAt 0).netq = netCmd .nsend 0 :: [] ∧ (s.connAt 4095).failed = false) ∧
    (∀ n ∈ [8, 9], let s := sending .nsendt n id
     (s.coreAt 0).netq = netCmd .nsendt n :: [] ∧ (s.connAt 4095).failed = false ∧ s.net.armed.length < 16384 ∧ (s.net.counters.get 0 4095).toNat = 8) ∧
    (let s := sending .nsend 0 id
     let k := s.connAt 4095
     (0 ≤ k.published) ∧ (k.isOpen = true ∧ k.failed = false ∧ k.held = false ∧ k.placed = false ∧ k.arrived = [] ∧ k.revocations = [] ∧
       1 = k.published + 1) ∧ k.buffers.find 4 = none ∧
     (∃ b s1, k.buffers.find 3 = some b ∧ 62 + 2 ≤ b.len ∧ ((portWakes s 4095).mapConn 4095 (fun k => { k with
        highest := if k.highest ≤ 1 then 1 else k.highest, arrived := [(1, ⟨3, 62, [7, 8], some b⟩)] })).placePacket 4095 b ⟨3, 62, [7, 8], some b⟩ = .ok s1 ∧
        s1.writesOf (.packet 4095) = false)) ∧
    (let s := sending .nsend 0 (fun k => { k with failed := true })
     (st.connAt 4095).isOpen = false ∧ (s.connAt 4095).isOpen = true ∧ (s.connAt 4095).failed = true ∧ (s.connAt 4095).sends = [] ∧
       (s.connAt 4095).revocations = [] ∧ (s.connAt 4095).waiting = []) ∧
    (let s := sending .nsend 0 (fun k => { k with sends := [⟨9, netCmd .nsend 0, 1, 1, false⟩] })
     ∃ x, (s.connAt 4095).sends.find? (fun y => y.id = 9 && !y.held) = some x) ∧
    (∀ n ∈ [0, 1], let s := sending .nsend 0 (fun k => { k with revocations := [⟨3, ⟨0x1000, 64, 4095, 0⟩, n, netCmd .nunpost 0⟩] })
     ∃ r, (s.connAt 4095).revocations.find? (fun r => r.number = 3) = some r ∧ r.upTo = n ∧ (s.connAt 4095).published = 0 ∧ (s.connAt 4095).waiting = [] ∧
       (s.connAt 4095).arrived = []) := by
  refine ⟨?_, ?_, ⟨?_, ?_, _, rfl⟩, ?_, ?_, ⟨?_, ?_, ?_, ⟨⟨0x1000, 64, 4095, 0⟩, _, ?_, ?_, ok_eq st _ ?_, ?_⟩⟩, ?_,
    ⟨⟨9, netCmd .nsend 0, 1, 1, false⟩, ?_⟩, ?_⟩
  case refine_16 =>
    intro n hn
    simp only [List.mem_cons, List.not_mem_nil, or_false] at hn
    rcases hn with rfl | rfl <;> exact ⟨_, rfl, rfl, rfl, rfl, rfl⟩
  all_goals decide +kernel

/-- Function 1 is valid and context 1 belongs to it; region 0 is exposed in device bias, region 1 flips to device bias and region 2 to host bias,
region 3 is not exposed; id 5 of function 0 holds a ring slot of queue 7, which is held. -/
def managed : State := st.mapHub (fun h => { h with
  fns := (h.fns.update 0 (fun f => { f with ictl := 0x0000000000000010, staged := [(2, 0xFFFFFFFF)] })).set 1 { FnRecord.none with valid := true, ictl := 0x0001000000000010 }
  ctxs := h.ctxs.set 1 { CtxRecord.none with valid := true, vfid := 1 }
  bias := [(0, ⟨true, false, false, false⟩), (1, ⟨true, true, true, false⟩), (2, ⟨true, false, true, true⟩)]
  held := [⟨0, 5, .pageNotPresent, none, [.ringSlot 7]⟩]
  queues := [(7, { HostQueue.none with valid := true, slotHeld := true, readIdx := 4 })] })

theorem witness_ManagementStoresTakeEffect_mappings :
    liveOn (mappedLive []) 0 2 = none ∧ liveOn (mappedLive []) 0 1 = some (0, 0) ∧
    (∃ s1, (mappedLive []).writeBackMapping 0 1 0 = .ok s1) ∧
    (∃ r s1, (mappedLive [⟨0, 192, true, false⟩]).writeBackMapping 0 1 0 = .error (.wait r, s1)) := by
  refine ⟨rfl, rfl, ⟨_, ok_eq st _ ?_⟩, ⟨none, _, stop_eq _ _ ?_⟩⟩ <;> decide +kernel

theorem witness_ManagementStoresTakeEffect :
    ((managed.fnAt 0).invBusy = none ∧ ((managed.fnAt 0).ictl.extractLsb' 0 48) ≠ 0 ∧
      (0 = 0 ∨ ((1 : Nat) ≠ 2 ∧ managed.fnOf ((managed.fnAt 0).ictl.extractLsb' 48 16).toNat = 0))) ∧
    ((managed.fnAt 1).invBusy = none ∧ ((0 : Nat) ≠ 2 ∧ managed.fnOf ((managed.fnAt 1).ictl.extractLsb' 48 16).toNat = 1) ∧
      ¬(1 = 0 ∨ ((2 : Nat) ≠ 2 ∧ managed.fnOf ((managed.fnAt 1).ictl.extractLsb' 48 16).toNat = 1))) ∧
    (((managed.mapFn 1 (fun x => { x with invBusy := some 3 })).fnAt 1).invBusy ≠ none) ∧
    ((managed.fnAt 0).staged.find 2 = some 0xFFFFFFFF ∧ (0x7 : DWord).extractLsb' 32 32 = 0 ∧ (0x100000000 : DWord).extractLsb' 32 32 ≠ 0) ∧
    (let b (r : Nat) := managed.hub.bias.get .none r
     ((b 0).exposed = true ∧ (b 0).busy = false ∧ (b 0).host ≠ true ∧ (b 0).host = false ∧ (b 3).exposed = false ∧ (b 1).busy = true ∧
       147455 < 147456 ∧ 147455 ≤ 147455) ∧
     ((b 1).toHost = false ∧ managed.mem.snoop.any (fun e => e.line / 16384 = 1) = false ∧
       (managed.mapMem (fun m => { m with snoop := [⟨3, 16384, false, false⟩] })).mem.snoop.any (fun e => e.line / 16384 = 1) = true ∧
       (b 2).busy = true ∧ (b 2).toHost = true ∧ managed.port.waiting = [])) ∧
    managed.cores = [] ∧ managed.hub.held.find? (fun x => x.fn = 0 && x.id = 6) = none ∧
    (∃ x, managed.hub.held.find? (fun x => x.fn = 0 && x.id = 5) = some x ∧ x.holds = [.ringSlot 7]) ∧
    (managed.mayStore .other 0 = false ∧ 511 < 512 ∧ 63 < 64) := by
  refine ⟨?_, ?_, ?_, ?_, ?_, ?_, ?_, ⟨_, rfl, rfl⟩, ?_⟩ <;> decide +kernel

/-- Core 191 is suspect and its island gated; self-test has not completed; a report is asked for at 0x6000. -/
def platform : State := (st.mapCore 191 (fun k => { k with suspect := true })).mapPlatform (fun p => { p with
  islands := p.islands.set 191 ⟨1, 0, true⟩, selfTest := true, report := some 0x6000 })

theorem witness_PlatformStepsTakeEffect :
    (requestOf 191 0 (.islandRequestNominal 191) ∧ requestOf 479 1 (.islandRequestHalf 479) ∧ requestOf 0 2 (.islandRequestQuarter 0) ∧
      requestOf 512 3 (.islandRequestGate 512) ∧ requestOf 507 1 (.islandRequestHalf 507) ∧ requestOf 480 2 (.islandRequestQuarter 480)) ∧
    (st.residents 191 = [] ∧ (st.coreAt 191).hasDirty = false) ∧ (st.platform.islands.get .none 5).gated = false ∧
    (511 < 512 ∧ (1 : BitVec 2) ≠ 3 ∧ (192 ≤ 200 ∧ 200 < 384) ∧ (st.platform.islands.get .none 200).limit ≠ 1 ∧
      (let s := st.mapPlatform (fun p => { p with islands := (List.range 192).map (fun i => (192 + i, ⟨0, 1, false⟩)) })
       (s.platform.islands.get .none 511).limit ≠ 1 ∧ ∀ i, i < 192 → (s.platform.islands.get .none (192 + i)).gated = true ∨
         (1 : BitVec 2).toNat ≤ (s.platform.islands.get .none (192 + i)).limit.toNat)) ∧
    st.platform.safe = false ∧ (st.mapPlatform (fun p => { p with safe := true })).platform.safe = true ∧
    ((platform.coreAt 191).suspect = true ∧ platform.platform.safe = false ∧ platform.platform.retesting = none ∧ platform.platform.selfTest = true) ∧
    (st.platform.report = none ∧ 0x6000 % 4096 = 0 ∧ 0x6001 % 4096 ≠ 0 ∧ platform.platform.report ≠ none ∧
      0x6000 + st.platform.reportBytes.length ≤ dramTop ∧ (dramTop - 4096) % 4096 = 0 ∧
      dramTop < dramTop - 4096 + (st.mapPlatform (fun p => { p with measurements := List.replicate 100 (0, 0, 0) })).platform.reportBytes.length) ∧
    (platform.platform.report = some 0x6000 ∧ platform.mem.snoop = [] ∧ 0x6000 + platform.platform.reportBytes.length ≤ dramTop) ∧
    (let s := State.reset
     s.hub.ctxs = [] ∧ s.hub.held = []) := by
  refine ⟨⟨.inl ⟨rfl, rfl⟩, .inr (.inl ⟨rfl, rfl⟩), .inr (.inr (.inl ⟨rfl, rfl⟩)), .inr (.inr (.inr ⟨rfl, rfl⟩)), .inr (.inl ⟨rfl, rfl⟩),
      .inr (.inr (.inl ⟨rfl, rfl⟩))⟩, ?_, ?_, ?_, ?_, ?_, ?_, ?_, ?_, ?_⟩ <;> decide +kernel

theorem witness_EveryStepKeepsMemoryCanonical : canonical st ∧ ∃ t, step st = .next t := by
  refine ⟨by unfold canonical; decide +kernel, ?_⟩
  exact ⟨match step st with | .next t => t | _ => st, rfl⟩

/-! ### Single steps: results worked out in the manual -/

/-- The issuing team's vector register `n` set lane by lane. -/
def withV (s : State) (n : Nat) (f : Nat → Word32) : State :=
  s.setRegs { s.regs with v := s.regs.v.set n ((List.range s.tw).map f) }

/-- Scalar register `n` after an instruction. -/
def scalarAfter (i : Instr) (s : State) (n : Nat) : Option DWord := match exec i s with | .next t => some (t.sreg n) | _ => none

/-- Lanes of vector register `n` after an instruction. -/
def lanesAfter (i : Instr) (s : State) (n : Nat) (lanes : List Nat) : Option (List Nat) :=
  match exec i s with
  | .next t => some (lanes.map (fun l => ((t.regs.v.get [] n).getD l 0).toNat))
  | _ => none

/-- The sum 2^64 − 1 + 1 wraps (R119). -/
theorem test_sadd_wraps : scalarAfter (.sadd (ops (.reg 5) (.reg 4) (.imm 1) .s64)) (withS st [(4, 0xFFFFFFFFFFFFFFFF)]) 5 = some 0 := by decide +kernel

/-- −7 by 2 (R120). -/
theorem test_sdiv_rounds_toward_zero :
    let s := withS st [(4, 0xFFFFFFFFFFFFFFF9)]
    scalarAfter (.sdiv (ops (.reg 5) (.reg 4) (.imm 2) .s64)) s 5 = some 0xFFFFFFFFFFFFFFFD ∧
    scalarAfter (.srem (ops (.reg 5) (.reg 4) (.imm 2) .s64)) s 5 = some 0xFFFFFFFFFFFFFFFF ∧
    scalarAfter (.sdiv (ops (.reg 5) (.reg 4) (.imm 2) .n64)) s 5 = some 0x7FFFFFFFFFFFFFFC ∧
    scalarAfter (.srem (ops (.reg 5) (.reg 4) (.imm 2) .n64)) s 5 = some 1 := by decide +kernel

/-- The quotients that are out of range (R120). -/
theorem test_sdiv_corners :
    let s := withS st [(4, 0x8000000000000000), (6, 0)]
    scalarAfter (.sdiv (ops (.reg 5) (.reg 4) (.imm 0xFF) .s64)) s 5 = some 0x8000000000000000 ∧
    scalarAfter (.srem (ops (.reg 5) (.reg 4) (.imm 0xFF) .s64)) s 5 = some 0 ∧
    scalarAfter (.sdiv (ops (.reg 5) (.reg 4) (.reg 6) .s64)) s 5 = some 0xFFFFFFFFFFFFFFFF ∧
    scalarAfter (.srem (ops (.reg 5) (.reg 4) (.reg 6) .s64)) s 5 = some 0x8000000000000000 := by decide +kernel

/-- A shift by −1 shifts by 63 (R119). -/
theorem test_sshl_masks_its_count : scalarAfter (.sshl (ops (.reg 4) (.reg 4) (.imm 0xFF) .s64)) (withS st [(4, 3)]) 4 = some 0x8000000000000000 := by
  decide +kernel

/-- The second word that builds W (R123). -/
theorem test_smovhi_keeps_the_low_half : scalarAfter (.smovhi ⟨3, 0, 0x01FFFFF0, 0⟩) (withS st [(3, 0)]) 3 = some 0x01FFFFF000000000 := by
  decide +kernel

/-- Saturation under n32 (R138), an immediate delivered as binary16 (R141). -/
theorem test_vsubs_vmov : lanesAfter (.vsubs (ops (.reg 2) (.reg 3) (.imm 0xFF) .n32)) (withV st 3 (fun l => BitVec.ofNat 32 l)) 2 [0, 31] = some [0, 0] ∧
    lanesAfter (.vmov (ops (.reg 4) (.reg 0) (.imm 3) .f16)) st 4 [0, 31] = some [0x4200, 0x4200] := by decide +kernel

/-- VCMP writes the bits of inactive lanes as 0 (R139). -/
theorem test_vcmp_inactive_lanes :
    nextWith (exec (.vcmp { ops (.reg 1) (.reg 1) (.imm 10) .s32 with var := 2, mask := some 2 })
      (withV (st.setRegs { st.regs with k := [(1, 0xFFFFFFFF), (2, 0x00000FFF)] }) 1 (fun l => BitVec.ofNat 32 l)))
      (fun t => t.regs.kreg 1 = 0x3FF) = true := by decide +kernel

/-- The vector of the example of R150. -/
def quantised : State :=
  withV st 1 (fun l => match l with | 0 => 0x41A00000 | 1 => 0xC0A00000 | 2 => 0x3E99999A | _ => 0)

/-- S10MK, D8PACK and D8UNP on it. -/
theorem test_block_scales :
    lanesAfter (.s10mk (ops (.reg 20) (.reg 1) (.reg 0) .f32)) quantised 20 [0, 7, 8] = some [0x1E5, 0x1E5, 0] ∧
    lanesAfter (.d8pack (ops (.reg 10) (.reg 1) (.reg 20) .f32)) (withV quantised 20 (fun l => if l < 8 then 0x1E5 else 0)) 10 [0, 1, 2, 3] =
      some [2, 0x84, 0x2F, 0] ∧
    lanesAfter (.d8unp (ops (.reg 11) (.reg 10) (.reg 20) .f32))
      (withV (withV quantised 20 (fun l => if l < 8 then 0x1E5 else 0)) 10 (fun l => match l with | 0 => 2 | 1 => 0x84 | 2 => 0x2F | _ => 0)) 11 [0, 1, 2, 3] =
      some [0x41A00000, 0xC0A00000, 0x3E960000, 0] := by decide +kernel

/-- The team of the example of R158: 64 lanes, 2·l in lane l of v1, lanes 0 to 39 active. -/
def crossing : State :=
  let s := st.mapGang 0 (fun g => { g with tw := 64 })
  withV (s.setRegs { s.regs with em := 0xFFFFFFFFFF }) 1 (fun l => BitVec.ofNat 32 (2 * l))

theorem test_cross_lane :
    lanesAfter (.xrot { ops (.reg 2) (.reg 1) (.imm 0xFF) with var := 3 }) crossing 2 [8] = some [30] ∧
    lanesAfter (.xbcst (ops (.reg 3) (.reg 1) (.imm 50))) crossing 3 [0, 39, 40] = some [100, 100, 0] ∧
    lanesAfter (.xscan (ops (.reg 4) (.reg 1) (.reg 0) .s32)) crossing 4 [0, 7, 39, 40] = some [0, 56, 1560, 0] ∧
    lanesAfter (.xred (ops (.reg 5) (.reg 1) (.reg 0) .s32)) crossing 5 [0, 39, 40] = some [1560, 1560, 0] ∧
    scalarAfter (.xfind (ops (.reg 6) (.reg 1) (.imm 100) .s32)) crossing 6 = some 0xFFFFFFFFFFFFFFFF := by decide +kernel

/-- No handler is set: the trap ends the dispatch by 0x04, and TEPC is its address (R106, R358, R359). -/
theorem test_trap_without_handler_ends :
    nextWith (exec (.trap (ops (.reg 0) (.imm 5) (.reg 0))) st) (fun t => decide ((t.teamAt 0).tepc = 0x1000 ∧
      (t.teamAt 0).tcause = 0x04 ∧ (match (t.teamAt 0).status with | .ended _ => true | _ => false) = true)) = true := by decide +kernel


end Sys2Proof.Tests
end

section
/-! ## Comparisons, XFIND and the mask instructions

The layer that the family of chapter 07 needs: an instruction that retires at the next address, said in the words of the statements (`onward`,
`after`, `wrote`); the outcome of a short vector instruction without queue operands, once for every op; the bits of the masks that the model
builds as sums of powers of two; and what well-formedness says of an F word's fields. The obligations are assembled from it at the end. -/
namespace Sys2Proof.Machine
open Sys2Proof.Claims

/-! ### Retirement at the next address (R68, R124, R175) -/

/-- Where no poisoned word is replaced, all of them stay. -/
theorem filter_keep_all (l : List BadReg) : l.filter (fun _ => true) = l := List.filter_eq_self.mpr fun _ _ => rfl

/-- An instruction whose effect is made and that goes on where the next address stands. -/
theorem State.retire_eq_onward {t : State} (h : nextStands t) : t.retire = .next (onward t) := by
  simp only [State.retire, State.advance_eq h, onward, issued, State.goTo, Team.counted, State.regs, Bool.not_false, filter_keep_all]

/-- Registers written whole, after which the team goes on: the words that `clean` names are not poisoned (R175). -/
theorem onward_putRegs (s : State) (r : TeamRegs) (clean : BadReg → Bool) (hpc : r.pc = s.regs.pc) :
    onward (s.putRegs r clean) = after s r clean := by
  have hteam : (s.putRegs r clean).team = { s.team with regs := r }.cleared clean := State.team_setTeam s _
  have hset : ∀ t, (s.putRegs r clean).setTeam t = s.setTeam t := State.setTeam_setTeam s _
  simp only [onward, after, issued, State.regs, hteam, hset, Team.cleared, Bool.not_false, filter_keep_all, hpc]

theorem retire_putRegs {s : State} {r : TeamRegs} (clean : BadReg → Bool) (hn : nextStands s) (hpc : r.pc = s.regs.pc) :
    (s.putRegs r clean).retire = .next (after s r clean) := by
  have hregs : (s.putRegs r clean).regs = r := congrArg Team.regs (State.team_setTeam s _)
  rw [State.retire_eq_onward (by rwa [nextStands, hregs, hpc]), onward_putRegs s r clean hpc]

/-- A write that replaces no poisoned word is a whole write that names none. -/
theorem State.setRegs_eq_putRegs (s : State) (r : TeamRegs) : s.setRegs r = s.putRegs r (fun _ => false) := by
  simp only [State.setRegs, State.putRegs, Team.cleared, Bool.not_false, filter_keep_all]

theorem retire_setS {s : State} (n : Nat) (x : DWord) (hn : nextStands s) :
    (s.setS n x).retire = .next (after s (s.regs.setS n x) (scal n)) := retire_putRegs _ hn (by simp)

theorem retire_setK {s : State} (n : Nat) (m : Mask) (hn : nextStands s) :
    (s.setK n m).retire = .next (after s (s.regs.setK s.tw n m) (mask n)) := retire_putRegs _ hn rfl

theorem retire_setEm {s : State} (m : Mask) (hn : nextStands s) :
    (s.setRegs (s.regs.setEm s.tw m)).retire = .next (after s { s.regs with em := m &&& laneMask s.tw }) := by
  rw [State.setRegs_eq_putRegs]
  exact retire_putRegs _ hn rfl

/-! ### Results written (R68, R82, R134, R175) -/

@[simp] theorem TeamRegs.writeOne_pc (r : TeamRegs) (tw : Nat) (w : RegWrite) : (r.writeOne tw w).pc = r.pc := by
  cases w with
  | vec n xs => rfl
  | mask n x => rfl
  | scal n x => exact TeamRegs.setS_pc r n x

@[simp] theorem TeamRegs.writeAll_pc (r : TeamRegs) (tw : Nat) (ws : List RegWrite) : (r.writeAll tw ws).pc = r.pc := by
  induction ws generalizing r with
  | nil => rfl
  | cons w ws ih => exact (ih _).trans (r.writeOne_pc tw w)

@[simp] theorem TeamRegs.raise_zero (r : TeamRegs) : r.raise 0#5 = r := by simp [TeamRegs.raise]

@[simp] theorem wrote_pc (s : State) (ws : List RegWrite) (fl : BitVec 5) : (wrote s ws fl).regs.pc = s.regs.pc := by
  simp [wrote, State.regs, TeamRegs.raise]

/-- A result written to the issuing team is what the statements say of it; a raised NV is pending once, whether it was before or not. -/
theorem State.writeResult_cur (s : State) (ws : List RegWrite) (fl : BitVec 5) : s.writeResult s.cur ws fl = wrote s ws fl := by
  have hteam : s.teamAt s.cur = s.team := rfl
  have htw : (s.gangAt s.team.gang).tw = s.tw := rfl
  simp only [State.writeResult, State.mapTeam, wrote, State.setTeam, hteam, htw]
  by_cases hnv : fl.getLsbD 4 = true
  · simp only [if_pos hnv, Team.pend, Team.cleared, TeamRegs.raise, fresh, State.regs, BitVec.or_assoc, BitVec.or_self]
    by_cases hf : s.team.fresh.1 = s.cycles <;> simp [hf]
  · simp only [if_neg hnv, Team.cleared, State.regs]

/-- A scalar result without flags is a write of the scalar register. -/
theorem wrote_scal (s : State) (n : Nat) (x : DWord) : wrote s [.scal n x] 0 = s.setS n x := by
  have hcov : ∀ b, (RegWrite.scal n x).covers b = decide (b = BadReg.scalar n) := by
    intro b
    cases b <;> simp [RegWrite.covers, eq_comm]
  simp [wrote, State.setS, State.putRegs, Team.cleared, TeamRegs.writeAll, TeamRegs.writeOne, hcov]

/-! ### Vector instructions without queue operands (R109, R135, R136) -/

theorem TeamRegs.popLegal_of_ne_queue (r : TeamRegs) {x : Src} (h : ∀ n, x ≠ .queue n) : r.popLegal x = true := by
  cases x with
  | queue n => exact absurd rfl (h n)
  | reg n => rfl
  | imm n => rfl
  | scalar n => rfl

theorem isQueueSrc_of_ne_queue {x : Src} (h : ∀ n, x ≠ .queue n) : isQueueSrc x = false := by
  cases x with
  | queue n => exact absurd rfl (h n)
  | reg n => rfl
  | imm n => rfl
  | scalar n => rfl

/-- A result for a register that is ready as the instruction issues is written, and the team goes on. -/
theorem State.finishVector_reg (before : State) {s : State} {o : Ops} {n : BitVec 8} (r : VecVal × Flags) (hd : o.d = .reg n)
    (hn : nextStands s) :
    before.finishVector s o false 0 r = .next (onward (wrote s [vecWrite o.d.num.toNat r.1] r.2)) := by
  have hnext : nextStands (wrote s [vecWrite n.toNat r.1] r.2) := by rwa [nextStands, wrote_pc]
  simp only [State.finishVector, hd, TeamRegs.storeStream, State.takeWords, if_true, Bool.false_eq_true, if_false, Dst.num]
  rw [State.writeResult_cur, State.retire_eq_onward hnext]

/-- A short vector instruction without queue operands writes what its op computes of its operands, and the team goes on. -/
theorem State.vector_noQueue {s : State} {o : Ops} (op : Nat) (hq : noQueue o) (hn : nextStands s) :
    s.vector op o false =
      .next (onward (wrote s [vecWrite o.d.num.toNat (vecOp op (vecIn s.tw op o s.regs [] [])).1]
        (vecOp op (vecIn s.tw op o s.regs [] [])).2)) := by
  obtain ⟨⟨n, hd⟩, ha, hb⟩ := hq
  rw [← State.finishVector_reg s _ hd hn]
  simp [State.vector, TeamRegs.popLegal_of_ne_queue, TeamRegs.pushLegal, isQueueSrc_of_ne_queue, ha, hb, hd]

/-! ### Masks as sums of powers of two (R22) -/

/-- The number whose bit `l` below `n` is set exactly where `p l` holds, as the model sums it. -/
def bitSum (n : Nat) (p : Nat → Bool) : Nat := (List.range n).foldl (fun x l => if p l then x + 2 ^ l else x) 0

theorem bitSum_succ (n : Nat) (p : Nat → Bool) : bitSum (n + 1) p = if p n then bitSum n p + 2 ^ n else bitSum n p := by
  simp [bitSum, List.range_succ]

theorem bitSum_lt (n : Nat) (p : Nat → Bool) : bitSum n p < 2 ^ n := by
  induction n with
  | zero => exact Nat.one_pos
  | succ n ih =>
    rw [bitSum_succ, Nat.pow_succ]
    split <;> omega

theorem testBit_bitSum (n : Nat) (p : Nat → Bool) (j : Nat) : (bitSum n p).testBit j = (decide (j < n) && p j) := by
  induction n with
  | zero => simp [bitSum]
  | succ n ih =>
    rcases Nat.lt_trichotomy j n with hlt | rfl | hgt
    · rw [bitSum_succ]
      split
      · rw [Nat.add_comm, Nat.testBit_two_pow_add_gt hlt, ih]
        simp [hlt, Nat.lt_succ_of_lt hlt]
      · rw [ih]
        simp [hlt, Nat.lt_succ_of_lt hlt]
    · have hclear : (bitSum j p).testBit j = false := Nat.testBit_lt_two_pow (bitSum_lt j p)
      rw [bitSum_succ]
      split
      · rename_i hp
        rw [Nat.add_comm, Nat.testBit_two_pow_add_eq, hclear]
        simp [hp]
      · rename_i hp
        simp [hclear, hp]
    · have hbound : bitSum (n + 1) p < 2 ^ j := Nat.lt_of_lt_of_le (bitSum_lt (n + 1) p) (Nat.pow_le_pow_right Nat.two_pos hgt)
      rw [Nat.testBit_lt_two_pow hbound]
      simp [Nat.not_lt.mpr (Nat.succ_le_of_lt hgt)]

theorem maskOf_eq_bitSum (tw : Nat) (f : Nat → Bool) : maskOf tw f = BitVec.ofNat 1024 (bitSum tw f) := rfl

theorem getLsbD_maskOf (tw : Nat) (f : Nat → Bool) {l : Nat} (hl : l < 1024) : (maskOf tw f).getLsbD l = (decide (l < tw) && f l) := by
  rw [maskOf_eq_bitSum, BitVec.getLsbD_ofNat, testBit_bitSum]
  simp [hl]

/-- A mask of active lanes needs no bound by TW: no lane at or above it is active (R61). -/
theorem getLsbD_maskOf_active (r : TeamRegs) (tw : Nat) (k : Option (BitVec 3)) (f : Nat → Bool) {l : Nat} (hl : l < 1024) :
    (maskOf tw (fun l => r.active tw k l && f l)).getLsbD l = (r.active tw k l && f l) := by
  rw [getLsbD_maskOf _ _ hl]
  by_cases h : l < tw <;> simp [TeamRegs.active, h]

theorem getLsbD_laneMask (tw : Nat) {l : Nat} (hl : l < 1024) : (laneMask tw).getLsbD l = decide (l < tw) := by
  rw [laneMask, BitVec.getLsbD_ofNat, Nat.testBit_two_pow_sub_one]
  simp [hl]

/-- k(d) after its write has no lane at or above TW (R22, R159). -/
theorem kreg_setK_above (r : TeamRegs) (d : Nat) (m : Mask) {tw l : Nat} (htw : tw ≤ l) (hl : l < 1024) :
    ((r.setK tw d m).kreg d).getLsbD l = false := by
  rw [TeamRegs.kreg_setK, if_pos rfl, BitVec.getLsbD_and, getLsbD_laneMask tw hl]
  simp [Nat.not_lt.mpr htw]

theorem summary_eq_bitSum (m : Mask) : summary m = BitVec.ofNat 32 (bitSum 32 (fun w => m.extractLsb' (32 * w) 32 != 0#32)) := by
  simp [summary, bitSum, bne_iff_ne]

/-- A word of a mask is not zero exactly where it holds a lane. -/
theorem extractLsb'_ne_zero_iff (m : Mask) (w : Nat) :
    m.extractLsb' (32 * w) 32 ≠ 0#32 ↔ ∃ l, l < 32 ∧ m.getLsbD (32 * w + l) = true := by
  constructor
  · intro h
    refine Classical.byContradiction fun hnone => h (BitVec.eq_of_getLsbD_eq fun l hl => ?_)
    have hbit : m.getLsbD (32 * w + l) = false := eq_false_of_ne_true fun hset => hnone ⟨l, hl, hset⟩
    simp [hl, hbit]
  · rintro ⟨l, hl, hset⟩ hzero
    have hbit := congrArg (fun x => x.getLsbD l) hzero
    simp [hl, hset] at hbit

/-- The summary of R22, of every mask. -/
theorem summarised_all (m : Mask) : summarised m := by
  intro w hw
  rw [summary_eq_bitSum, BitVec.getLsbD_ofNat, testBit_bitSum]
  simp only [hw, decide_true, Bool.true_and, bne_iff_ne]
  exact extractLsb'_ne_zero_iff m w

/-! ### The lowest lane (R158, R159) -/

/-- The first of the lanes that satisfy a condition is the first that satisfies it: what KFIRST takes of a filtered list is `lowestLane`. -/
theorem lowestLane_eq_filter (s : State) (p : Nat → Bool) :
    lowestLane s p = (match (List.range s.tw).filter p with | l :: _ => BitVec.ofNat 64 l | [] => 0xFFFFFFFFFFFFFFFF) := by
  rw [lowestLane, ← List.head?_filter]
  cases (List.range s.tw).filter p <;> rfl

/-! ### Lanes as values (R76, R135) -/

theorem intOf_eq_laneVal (signed : Bool) (x : Word32) : intOf signed 32 x.toNat = laneVal signed x := by
  have hx := x.isLt
  cases signed with
  | false =>
    simp only [intOf, laneVal, Bool.false_and, Bool.false_eq_true, if_false, Nat.mod_eq_of_lt hx]
  | true =>
    simp only [intOf, laneVal, BitVec.toInt_eq_toNat_cond, if_true, Bool.true_and, decide_eq_true_eq, Nat.mod_eq_of_lt hx]
    split <;> split <;> omega

/-! ### Well-formed F words (R54, R55, R59, R60, R67, R74) -/

/-- The checks of a well-formed F word have passed: step 3 of R74, and those of the instruction itself. -/
theorem checks_of_wellFormed {env : Env} {i : Instr} {op : Nat} {o : Ops} {sp : FSpec} (hi : i.fForm = some (op, o))
    (hs : fSpec op = some sp) (h : i.wellFormed env = true) : sp.refused env op o = false ∧ ownCheck env op o = none := by
  simp only [Instr.wellFormed, hi, wellFormedF, hs, Bool.and_eq_true, decide_eq_true_eq] at h
  obtain ⟨_, hcheck⟩ := h
  rw [FSpec.check] at hcheck
  split at hcheck
  · cases hcheck
  · rename_i hfields
    split at hcheck
    · cases hcheck
    · simp only [Bool.or_eq_true, not_or, Bool.not_eq_true] at hfields
      exact ⟨hfields.1, hcheck⟩

/-- A type code that the instruction does not take is refused in step 3 of R74. -/
theorem type_mem_of_not_refused {sp : FSpec} {env : Env} {op : Nat} {o : Ops} (h : sp.refused env op o = false) : o.ty ∈ sp.types := by
  simp only [FSpec.refused, Bool.or_eq_false_iff] at h
  obtain ⟨⟨⟨⟨_, hty⟩, _⟩, _⟩, _⟩ := h
  simpa only [Bool.not_eq_false', List.contains_iff_mem] using hty

/-- The variant of an instruction that has none is zero. -/
theorem var_eq_zero_of_ownCheck {o : Ops} (h : (if decide (o.var.toNat ≠ 0) = true then some Cause.illegalInstruction else none) = none) :
    o.var = 0 := by
  split at h
  · cases h
  · rename_i hv
    exact BitVec.eq_of_toNat_eq (by simpa using hv)

theorem Dst.eq_reg_of_not_refused {k : Kind} {d : Dst} (h : d.refused [] k = false) : d = .reg d.num := by
  cases d with
  | reg n => rfl
  | queue n => simp [Dst.refused] at h

theorem Src.eq_reg_of_not_refused {imm que : Mod} {k : Kind} {sca : Option Mod} {x : Src} (h : x.refused [] imm que sca k = false) :
    x = .reg x.num := by
  cases x with
  | reg n => rfl
  | imm n => simp [Src.refused] at h
  | scalar n => cases sca <;> simp [Src.refused] at h
  | queue n => simp [Src.refused] at h

/-- What the mask instructions accept (R159): no modifier bit, no type, no mode and no lookahead, and a variant of zero. Its fields are then
plain. -/
theorem plainOps_of_wellFormed {env : Env} {i : Instr} {op : Nat} {o : Ops} {kinds : Ops → Kind × Kind × Kind}
    (hi : i.fForm = some (op, o)) (hs : fSpec op = some ⟨kinds, [], [.untyped], false, fun _ => false⟩)
    (hown : ownCheck env op o = if decide (o.var.toNat ≠ 0) = true then some Cause.illegalInstruction else none)
    (h : i.wellFormed env = true) : plainOps o := by
  obtain ⟨hfields, hcheck⟩ := checks_of_wellFormed hi hs h
  have hty : o.ty = .untyped := by simpa using type_mem_of_not_refused hfields
  have hvar : o.var = 0 := var_eq_zero_of_ownCheck (hown ▸ hcheck)
  simp only [FSpec.refused, Bool.or_eq_false_iff] at hfields
  obtain ⟨⟨⟨⟨⟨⟨hd, ha⟩, hb⟩, _⟩, hmode⟩, hmask⟩, hla⟩ := hfields
  have hda := Dst.eq_reg_of_not_refused hd
  have haa := Src.eq_reg_of_not_refused ha
  have hba := Src.eq_reg_of_not_refused hb
  rw [haa, hba] at hla
  exact ⟨hda, haa, hba, hty, hvar, by simpa using hmode, by simpa using hmask, by simpa using hla⟩

end Sys2Proof.Machine

namespace Sys2Proof
open Sys2Proof.Machine Sys2Proof.Claims

/-! ### VCMP, FCMP and XFIND -/

theorem exec_vcmp {s : State} {o : Ops} (hq : noQueue o) (hn : nextStands s) :
    exec (.vcmp o) s = .next (onward (wrote s [.mask o.d.num.toNat (maskOf s.tw (fun l => s.regs.active s.tw o.mask l &&
      relation o.var.toNat (laneVal o.ty.isSigned (opnd s o.ty o.a l)) (laneVal o.ty.isSigned (opnd s o.ty o.b l))))] 0)) := by
  simp only [← intOf_eq_laneVal]
  exact State.vector_noQueue 0x0CF hq hn

theorem exec_fcmp {s : State} {o : Ops} (hq : noQueue o) (hn : nextStands s) :
    exec (.fcmp o) s = .next (onward (wrote s
      [.mask o.d.num.toNat (maskOf s.tw (fun l => s.regs.active s.tw o.mask l &&
        (fcmp (fmtOf o.ty) o.var.toNat (fpBits o.ty (opnd s o.ty o.a l)) (fpBits o.ty (opnd s o.ty o.b l))).1))]
      (laneFlags s o (fun l =>
        (0, (fcmp (fmtOf o.ty) o.var.toNat (fpBits o.ty (opnd s o.ty o.a l)) (fpBits o.ty (opnd s o.ty o.b l))).2))))) :=
  State.vector_noQueue 0x106 hq hn

theorem exec_xfind {s : State} {o : Ops} (hq : noQueue o) (hn : nextStands s) :
    exec (.xfind o) s = .next (after s (s.regs.setS o.d.num.toNat (lowestLane s
      (fun l => s.regs.active s.tw o.mask l && opnd s o.ty o.a l = (s.regs.source o.b).setWidth 32))) (scal o.d.num.toNat)) := by
  rw [← onward_putRegs s _ _ (TeamRegs.setS_pc _ _ _)]
  refine (State.vector_noQueue 0x186 hq hn).trans ?_
  exact congrArg (fun t => Host.Outcome.next (onward t)) (wrote_scal s _ _)

theorem var_lt_of_wellFormed_vcmp {env : Env} {o : Ops} (h : (Instr.vcmp o).wellFormed env = true) : o.var.toNat < 6 := by
  obtain ⟨_, hown⟩ := checks_of_wellFormed rfl rfl h
  simpa [ownCheck] using hown

theorem fields_of_wellFormed_xfind {env : Env} {o : Ops} (h : (Instr.xfind o).wellFormed env = true) :
    (o.ty = .s32 ∨ o.ty = .n32) ∧ o.var = 0 := by
  obtain ⟨hfields, hown⟩ := checks_of_wellFormed rfl rfl h
  exact ⟨by simpa using type_mem_of_not_refused hfields, var_eq_zero_of_ownCheck hown⟩

/-- Settles O16: each instruction by its outcome, the masks by the bits of `maskOf`, the refusals by the checks of R74. -/
theorem comparisonsWriteMasksAndFindWritesALane : Obligations.ComparisonsWriteMasksAndFindWritesALane := by
  unfold Obligations.ComparisonsWriteMasksAndFindWritesALane
  intro s o hq hn _
  refine ⟨fun _ => ⟨_, summarised_all _, fun l hl => ?_, exec_vcmp hq hn⟩,
    ⟨_, fun l hl => getLsbD_maskOf_active _ _ _ _ hl, exec_fcmp hq hn⟩, exec_xfind hq hn,
    fun env => ⟨var_lt_of_wellFormed_vcmp, fields_of_wellFormed_xfind⟩⟩
  rw [getLsbD_maskOf_active _ _ _ _ hl]
  rcases o.var.toNat with _ | _ | _ | _ | _ | v <;> rfl

/-! ### The mask instructions -/

theorem exec_kfirst {s : State} {o : Ops} (hn : nextStands s) :
    exec (.kfirst o) s = .next (after s (s.regs.setS o.d.num.toNat (lowestLane s
      (fun l => (s.regs.kreg o.a.num.toNat).getLsbD l))) (scal o.d.num.toNat)) := by
  rw [lowestLane_eq_filter]
  exact retire_setS _ _ hn

theorem plainOps_of_wellFormed_mask {env : Env} {o : Ops} {i : Instr}
    (hi : i ∈ [Instr.kand o, .kor o, .kxor o, .kandn o, .kpop o, .kfirst o, .emget o, .emset o, .emand o])
    (h : i.wellFormed env = true) : plainOps o := by
  simp only [List.mem_cons, List.not_mem_nil, or_false] at hi
  rcases hi with rfl | rfl | rfl | rfl | rfl | rfl | rfl | rfl | rfl <;> exact plainOps_of_wellFormed rfl rfl rfl h

/-- Settles O20: each instruction is one register write that retires; the bits above TW by `laneMask`, the fields by the checks of R74. -/
theorem maskInstructionsCompute : Obligations.MaskInstructionsCompute := by
  unfold Obligations.MaskInstructionsCompute
  intro s o hn
  exact ⟨retire_setK _ _ hn, retire_setK _ _ hn, retire_setK _ _ hn, retire_setK _ _ hn, retire_setK _ _ hn,
    retire_setEm _ hn, retire_setEm _ hn, retire_setS _ _ hn, exec_kfirst hn,
    fun _ _ htw hl => kreg_setK_above _ _ _ htw hl, summarised_all, fun _ _ hi => plainOps_of_wellFormed_mask hi⟩

end Sys2Proof
end
